-- ==== Sys2Proof/Word.lean ====
section
/-! DEFINITION. The words of the block (00_scope.md R6, R8): the host data word, the byte cells of
the buffers and of GF(256), the one-bit cells of `BV`, the 64-bit matrix entries. -/

namespace Sys2Proof

/-- The host data word, a command word, a Q16.16 raw (R6). -/
abbrev Word := BitVec 32

/-- A shard byte, a coefficient, a parity byte, an element of GF(256) (R6, R120). -/
abbrev Byte := BitVec 8

/-- One cell of the bit buffer `BV` (R48). -/
abbrev Bit := BitVec 1

/-- A matrix entry, a Q32.32 raw (R6). -/
abbrev Entry := BitVec 64

end Sys2Proof
end

