-- ==== Sys2Proof/Syntax.lean ====
section
/-! DEFINITION. The 16 commands of 30_encoding.md R105, one constructor per row of the opcode table. -/

namespace Sys2Proof

/-- The operand `s` of format S (R107): which point a point command takes as its input. -/
inductive PointSel where
  /-- `s = 0`: the point (`PTX`, `PTY`), always valid. -/
  | pt
  /-- `s = 1`: the point (`RX`, `RY`), valid exactly when `STATUS.PINV` = 0. -/
  | r
  deriving DecidableEq, Repr

/-- A decoded command (R100, R105). The bit count `n` of format N is a count, 0..65535 (R107). -/
inductive Instr where
  | nop
  | gfmul
  | gfdiv
  | gfexp
  | gflog
  | pack (n : Nat)
  | unpack (n : Nat)
  | rle (n : Nat)
  | pargen
  | parchk
  | hsolve
  | hmap (p : PointSel)
  | himap (p : PointSel)
  | scale (p : PointSel)
  | nint (p : PointSel)
  | srst
  deriving DecidableEq, Repr

end Sys2Proof
end

