-- ==== Sys2Proof/Decode.lean ====
section
/-! DEFINITION. Decoding and encoding of command words (30_encoding.md R100 to R108). -/

namespace Sys2Proof

/-- Why a word is an illegal command (R106). -/
inductive DecodeError where
  /-- The opcode is not one of the 16 of R105. -/
  | unassignedOpcode
  /-- The opcode is listed and its "reserved, must be 0" field is not zero. -/
  | reservedNotZero
  deriving DecidableEq, Repr

/-- R101: bits 31:24 of every word. -/
def opcodeOf (w : Word) : Byte := w.extractLsb' 24 8

/-- R102: format Z, bits 23:0 must be 0. -/
def decodeZ (w : Word) (i : Instr) : Except DecodeError Instr :=
  if w.extractLsb' 0 24 = 0 then .ok i else .error .reservedNotZero

/-- R103, R107: format N, bits 23:16 must be 0, the count is bits 15:0, unscaled and unsigned. -/
def decodeN (w : Word) (i : Nat → Instr) : Except DecodeError Instr :=
  if w.extractLsb' 16 8 = 0 then .ok (i (w.extractLsb' 0 16).toNat) else .error .reservedNotZero

/-- R107: bit 0 selects the input point. -/
def pointSelOf (w : Word) : PointSel := if w.getLsbD 0 then .r else .pt

/-- R104: format S, bits 23:1 must be 0. -/
def decodeS (w : Word) (i : PointSel → Instr) : Except DecodeError Instr :=
  if w.extractLsb' 1 23 = 0 then .ok (i (pointSelOf w)) else .error .reservedNotZero

/-- R105, R106, R108: every word is one of the 16 commands with a definite operand, or illegal. -/
def decode (w : Word) : Except DecodeError Instr :=
  match (opcodeOf w).toNat with
  | 0x00 => decodeZ w .nop
  | 0x01 => decodeZ w .gfmul
  | 0x02 => decodeZ w .gfdiv
  | 0x03 => decodeZ w .gfexp
  | 0x04 => decodeZ w .gflog
  | 0x10 => decodeN w .pack
  | 0x11 => decodeN w .unpack
  | 0x12 => decodeN w .rle
  | 0x20 => decodeZ w .pargen
  | 0x21 => decodeZ w .parchk
  | 0x30 => decodeZ w .hsolve
  | 0x31 => decodeS w .hmap
  | 0x32 => decodeS w .himap
  | 0x40 => decodeS w .scale
  | 0x41 => decodeS w .nint
  | 0x7F => decodeZ w .srst
  | _ => .error .unassignedOpcode

/-- R105: the opcode of a command. -/
def opcode : Instr → Byte
  | .nop => 0x00
  | .gfmul => 0x01
  | .gfdiv => 0x02
  | .gfexp => 0x03
  | .gflog => 0x04
  | .pack _ => 0x10
  | .unpack _ => 0x11
  | .rle _ => 0x12
  | .pargen => 0x20
  | .parchk => 0x21
  | .hsolve => 0x30
  | .hmap _ => 0x31
  | .himap _ => 0x32
  | .scale _ => 0x40
  | .nint _ => 0x41
  | .srst => 0x7F

/-- R104, R107: the field `s`. -/
def PointSel.bits : PointSel → BitVec 24
  | .pt => 0
  | .r => 1

/-- R102, R103, R104: the low 24 bits of a command word, the operand with its reserved zeros. -/
def operandBits : Instr → BitVec 24
  | .pack n => BitVec.ofNat 16 n |>.setWidth 24
  | .unpack n => BitVec.ofNat 16 n |>.setWidth 24
  | .rle n => BitVec.ofNat 16 n |>.setWidth 24
  | .hmap p => p.bits
  | .himap p => p.bits
  | .scale p => p.bits
  | .nint p => p.bits
  | .nop => 0
  | .gfmul => 0
  | .gfdiv => 0
  | .gfexp => 0
  | .gflog => 0
  | .pargen => 0
  | .parchk => 0
  | .hsolve => 0
  | .srst => 0

/-- R110: "The encoding of a `cmd` line is `op << 24 | operand`". -/
def encode (i : Instr) : Word := opcode i ++ operandBits i

/-- The instruction of the opcode table's word `w` of `nbits` bits; the bits above are 0. -/
def decodeTableWord (nbits w : Nat) : Option Instr :=
  match decode (BitVec.ofNat 32 (w % 2 ^ nbits)) with
  | .ok i => some i
  | .error _ => none

end Sys2Proof
end

