-- ==== Sys2Proof/Config.lean ====
section
/-! DEFINITION. What an implementation fixes (00_scope.md R5) and the values the spec leaves free
(10_state.md R54). -/

namespace Sys2Proof

/-- The implementation parameters of R5, before any check of their constraints. -/
structure Params where
  /-- `SB_MAX`: byte cells in `SB` and in each row of `CF`. -/
  sbMax : Nat
  /-- `K_MAX`: rows of `CF`, cells of `PAR` and `RXP`. -/
  kMax : Nat
  /-- `BV_MAX`: bit cells in `BV`, entries in `RL`. -/
  bvMax : Nat
  /-- `GF_POLY`: the field polynomial of GF(256). -/
  gfPoly : BitVec 9
  /-- `BASE`: the byte address at which the platform places the register window. -/
  base : Nat
  /-- `ID_VALUE`: the value of the `ID` register. -/
  idValue : Word
  deriving DecidableEq, Repr

/-- The default column of R5. `BASE` is "OPEN, no default; examples use offsets only": 0, at which
addresses and offsets are equal, is the model's value (DESIGN CHOICE, log 4). -/
def Params.default : Params :=
  { sbMax := 64, kMax := 4, bvMax := 512, gfPoly := 0x11D, base := 0,
    idValue := 0x52434142 }

/-- R54: what `SB[i]` holds after the `r`-th hardware reset until it is written. A free value. -/
opaque Config.sbAtReset (r i : Nat) : Byte

/-- R54: what `CF[k][i]` holds after the `r`-th hardware reset until it is written. A free value. -/
opaque Config.cfAtReset (r k i : Nat) : Byte

/-- R54: what `BV[i]` holds after the `r`-th hardware reset until it is written. A free value. -/
opaque Config.bvAtReset (r i : Nat) : Bit

/-- R54: what `RL[j]` holds after the `r`-th hardware reset until it is written. A free value. -/
opaque Config.rlAtReset (r j : Nat) : Word

end Sys2Proof
end

