-- ==== Sys2Proof/Machine/Field.lean ====
section
/-! DEFINITION. Arithmetic of GF(256) (40_gf256.md R120 to R125), for any field polynomial. -/

namespace Sys2Proof.Machine

/-- A field polynomial, 9 bits, bit 8 set (R120). -/
abbrev Poly := BitVec 9

/-- R121: multiplication by the generator `α` = 0x02, with `t = v << 1` in 9 bits. -/
def xtime (poly : Poly) (v : Byte) : Byte :=
  let t : BitVec 9 := v.setWidth 9 <<< 1
  (if t.getLsbD 8 then t ^^^ poly else t).setWidth 8

/-- R122: `α^i`, with `EXP[i] = α^i` for `i ≤ 254`. -/
def alphaPow (poly : Poly) : Nat → Byte
  | 0 => 0x01
  | i + 1 => xtime poly (alphaPow poly i)

/-- R122: the table entry `EXP[e mod 255]`, "`α^e` for any integer e ≥ 0". -/
def gfExp (poly : Poly) (e : Nat) : Byte := alphaPow poly (e % 255)

/-- The first `i` at or after `i` with `α^i = v`, where `cur = α^i`, within `fuel` table entries. -/
def logFrom (poly : Poly) (v : Byte) : (fuel i : Nat) → (cur : Byte) → Nat
  | 0, i, _ => i
  | fuel + 1, i, cur => if cur = v then i else logFrom poly v fuel (i + 1) (xtime poly cur)

/-- R123: `LOG[v]`, the `i` in 0..254 with `EXP[i] = v`. "`LOG[0]` does not exist": no command uses
the number this function gives for `v = 0` (log 17). -/
def gfLog (poly : Poly) (v : Byte) : Nat := logFrom poly v 255 0 0x01

/-- The sum of the `k` lowest terms `b[j]·x^j·a`, each already reduced: `a` is the current `x^j·a`
and bit 0 of `b` the current coefficient. -/
def mulTerms (poly : Poly) : (k : Nat) → (a b : Byte) → Byte
  | 0, _, _ => 0
  | k + 1, a, b => (if b.getLsbD 0 then a else 0) ^^^ mulTerms poly k (xtime poly a) (b >>> 1)

/-- R120, R124: the product, as the polynomial product reduced modulo the field polynomial
("a model may compute the product either way"; log 10). -/
def gfMul (poly : Poly) (a b : Byte) : Byte := mulTerms poly 8 a b

/-- R125: the quotient for `b ≠ 0`, through the tables. GFDIV raises before it divides by 0. -/
def gfDiv (poly : Poly) (a b : Byte) : Byte :=
  if a = 0 then 0 else alphaPow poly ((gfLog poly a + 255 - gfLog poly b) % 255)

/-- None of `v`, `α·v`, …, `α^(k-1)·v` is 0x01 and `α^k·v` is. -/
def firstReturnsAt (poly : Poly) : (k : Nat) → (v : Byte) → Bool
  | 0, v => v == 0x01
  | k + 1, v => v != 0x01 && firstReturnsAt poly k (xtime poly v)

/-- R121: 0x02 generates the 255 non-zero elements. The powers `α^1 … α^254` differ from 0x01 and
`α^255` is 0x01, which says that `α^0 … α^254` are 255 different non-zero bytes (log 11). -/
def isGenerator (poly : Poly) : Bool := firstReturnsAt poly 254 (xtime poly 0x01)

end Sys2Proof.Machine
end

