-- ==== Sys2Proof/WellFormed.lean ====
section
/-! DEFINITION. What makes a command (30_encoding.md R103, R107) and a set of parameters
(00_scope.md R5) well formed. -/

namespace Sys2Proof

/-- R107: the bit count of format N is a 16-bit field; the other operands cannot be ill formed. -/
def Instr.wf : Instr → Bool
  | .pack n => decide (n < 2 ^ 16)
  | .unpack n => decide (n < 2 ^ 16)
  | .rle n => decide (n < 2 ^ 16)
  | .nop => true
  | .gfmul => true
  | .gfdiv => true
  | .gfexp => true
  | .gflog => true
  | .pargen => true
  | .parchk => true
  | .hsolve => true
  | .hmap _ => true
  | .himap _ => true
  | .scale _ => true
  | .nint _ => true
  | .srst => true

/-- The constraints of R5 and R121. A set that breaks one is "not a legal parameter value and the
block is not defined for it" (R121; 93_implementation_defined.md I7, I8). -/
def Params.wf (p : Params) : Bool :=
  decide (1 ≤ p.sbMax) && decide (p.sbMax ≤ 256) &&
  decide (1 ≤ p.kMax) && decide (p.kMax ≤ 8) &&
  decide (8 ≤ p.bvMax) && decide (p.bvMax ≤ 4096) && decide (p.bvMax % 8 = 0) &&
  p.gfPoly.getLsbD 8 && Machine.isGenerator p.gfPoly &&
  decide (p.base % 4 = 0)

/-- The parameters of a block that the spec defines: the raw values with the check they passed, so
that a block with illegal parameters cannot be written down (log 3). -/
structure LegalParams extends Params where
  legal : toParams.wf = true
  deriving DecidableEq, Repr

/-- The block with the default parameters of R5. -/
def LegalParams.default : LegalParams := { Params.default with legal := by decide +kernel }

end Sys2Proof
end

