-- ==== Sys2Proof/Machine/State.lean ====
section
/-! DEFINITION. The state of the block (10_state.md R20 to R54), the host's transactions, the reasons
a step can stop, and the state after a hardware reset. -/

namespace Sys2Proof.Machine

/-- A buffer: the cells written since the last hardware reset, as (element index, value) pairs with
strictly rising indices. A cell that is not listed has not been written and holds its free value of
R54 (log 5, log 6). -/
abbrev Memory (w : Nat) := List (Nat × BitVec w)

/-- The canonical form of a buffer: indices strictly rising. -/
abbrev Memory.wf {w : Nat} (m : Memory w) : Prop := m.Pairwise (fun a b => a.1 < b.1)

/-- The width of a host transaction, in bytes (20_memory.md R71, R72). -/
inductive Width where
  | one
  | two
  | four
  | eight
  deriving DecidableEq, Repr

/-- What the world outside does to the block (00_scope.md R12): a bus transaction at a byte address
(`MemRead` and `MemWrite` of 00_scope.md R10 and 20_memory.md R71), or a new level of the reset input
(70_reset_and_hazards.md R250). -/
inductive HostEvent where
  | read (addr : Nat) (width : Width)
  | write (addr : Nat) (width : Width) (v : Word)
  | reset (level : Bool)
  deriving DecidableEq, Repr

/-- The block's response to the latest transaction (log 2). -/
inductive Response where
  /-- No transaction since reset, or the latest event was a level of the reset input or a transaction
  at an address outside the window. -/
  | none
  /-- A write completed. -/
  | written
  /-- A read completed with this data. -/
  | data (v : Word)
  deriving DecidableEq, Repr

/-- The registers of 20_memory.md R88, by name and element index. -/
inductive Reg where
  | id | version | cap0 | cap1 | cmd | status | estat | ien | ecmd
  | gfa | gfb | gfr | slen | prows | pbits | rlcnt | hctl
  | ptx | pty | rx | ry | sclk | sofx | sofy
  | imgw | imgh | stride | pxi | pyi | pidx
  | srcx (i : Nat) | srcy (i : Nat) | dstx (i : Nat) | dsty (i : Nat)
  | hlo (k : Nat) | hhi (k : Nat) | glo (k : Nat) | ghi (k : Nat)
  | par (k : Nat) | rxp (k : Nat)
  | sb (i : Nat) | cf (k i : Nat) | bv (i : Nat) | rl (j : Nat)
  deriving DecidableEq, Repr

/-- The state of R20, and five fields of the model's own (`cfg`, `resetCount`, `rst`, `pending`,
`resp`). -/
structure State where
  /-- The implementation parameters of 00_scope.md R5; no step changes them (log 3). -/
  cfg : LegalParams
  /-- `STATUS.LASTERR` (R28). -/
  lastErr : BitVec 8
  /-- `STATUS.PMATCH` (R28). -/
  pmatch : Bool
  /-- `STATUS.PINV` (R28). -/
  pinv : Bool
  /-- `STATUS.OOB` (R28). -/
  oob : Bool
  /-- Bits 8:1 of `ESTAT` (R29). -/
  estat : BitVec 8
  /-- Bits 8:1 of `IEN` (R30). -/
  ien : BitVec 8
  /-- `ECMD` (R31). -/
  ecmd : Word
  /-- `HCTL.HVALID` (R32), seen also as `STATUS.HVALID` (R22). -/
  hvalid : Bool
  /-- `HCTL.BND` (R32). -/
  bnd : Bool
  /-- `GFA` (R33). -/
  gfa : Byte
  /-- `GFB` (R33). -/
  gfb : Byte
  /-- `GFR` (R33). -/
  gfr : Byte
  /-- `SLEN` (R34). -/
  slen : BitVec 16
  /-- `PROWS` (R34). -/
  prows : BitVec 4
  /-- `PBITS` (R34). -/
  pbits : BitVec 7
  /-- `RLCNT` (R35). -/
  rlcnt : BitVec 13
  /-- `PTX` (R36). -/
  ptx : Word
  /-- `PTY` (R36). -/
  pty : Word
  /-- `RX` (R37). -/
  rx : Word
  /-- `RY` (R37). -/
  ry : Word
  /-- `SCLK` (R38). -/
  sclk : Word
  /-- `SOFX` (R38). -/
  sofx : Word
  /-- `SOFY` (R38). -/
  sofy : Word
  /-- `IMGW` (R39). -/
  imgw : BitVec 16
  /-- `IMGH` (R39). -/
  imgh : BitVec 16
  /-- `STRIDE` (R39). -/
  stride : BitVec 16
  /-- `PXI` (R40). -/
  pxi : Word
  /-- `PYI` (R40). -/
  pyi : Word
  /-- `PIDX` (R40). -/
  pidx : Word
  /-- `SRCX[0..3]` (R41). -/
  srcx : Vector Word 4
  /-- `SRCY[0..3]` (R41). -/
  srcy : Vector Word 4
  /-- `DSTX[0..3]` (R41). -/
  dstx : Vector Word 4
  /-- `DSTY[0..3]` (R41). -/
  dsty : Vector Word 4
  /-- `H[0..8]`, row major (R42). -/
  h : Vector Entry 9
  /-- `G[0..8]`, row major (R43). -/
  g : Vector Entry 9
  /-- `PAR[0..K_MAX-1]` (R44); the cells from `K_MAX` on do not exist and stay 0 (log 16). -/
  par : Vector Byte 8
  /-- `RXP[0..K_MAX-1]` (R45); the cells from `K_MAX` on do not exist and stay 0 (log 16). -/
  rxp : Vector Byte 8
  /-- `SB[0..SB_MAX-1]` (R46). -/
  sb : Memory 8
  /-- `CF[k][i]` (R47), at index `256·k + i` (log 15). -/
  cf : Memory 8
  /-- `BV[0..BV_MAX-1]` (R48). -/
  bv : Memory 1
  /-- `RL[0..BV_MAX-1]` (R49). -/
  rl : Memory 32
  /-- How many hardware resets there were: it selects the draw of R54 (log 5). -/
  resetCount : Nat
  /-- The level of the reset input: true while asserted (70_reset_and_hazards.md R250; log 8). -/
  rst : Bool
  /-- The host's and the reset input's actions still to come, the next one first (log 1). -/
  pending : List HostEvent
  /-- The response to the latest transaction (log 2). -/
  resp : Response
  deriving DecidableEq, Repr

/-- The bus error response of 20_memory.md R72 and R73: nothing in the block changes and "A model
refuses such a transaction (no step)". Raised by the host's reads and writes of `serve`, never by a
command. Safe: the hardware goes on with an unchanged block, the model stops (log 7). -/
inductive Fault where
  /-- R72: a width other than four bytes, or an offset that is not a multiple of 4. Safe. -/
  | badTransaction
  /-- R73: an aligned 32-bit access at an offset that the map of R88 does not list. Safe. -/
  | unmappedOffset
  deriving DecidableEq, Repr

/-- What the model has no step for. -/
inductive Refusal where
  /-- Raised by `exec` for an instruction without a meaning yet. Safe: the model stops. -/
  | notModelled (mnemonic : String)
  /-- Raised by `serve` for a transaction while the reset input is asserted: "no host step exists in
  that interval" (93_implementation_defined.md I12). Safe: the model stops (log 8). -/
  | heldInReset
  deriving DecidableEq, Repr

/-- The block right after its first hardware reset: the registers as in R53, every buffer cell
unspecified (R54), the reset input released and no transaction under way. -/
def State.reset : State where
  cfg := LegalParams.default
  lastErr := 0
  pmatch := false
  pinv := false
  oob := false
  estat := 0
  ien := 0
  ecmd := 0
  hvalid := false
  bnd := true
  gfa := 0
  gfb := 0
  gfr := 0
  slen := 0
  prows := 0
  pbits := 0
  rlcnt := 0
  ptx := 0
  pty := 0
  rx := 0
  ry := 0
  sclk := 0
  sofx := 0
  sofy := 0
  imgw := 0
  imgh := 0
  stride := 0
  pxi := 0
  pyi := 0
  pidx := 0
  srcx := Vector.replicate 4 0
  srcy := Vector.replicate 4 0
  dstx := Vector.replicate 4 0
  dsty := Vector.replicate 4 0
  h := Vector.replicate 9 0
  g := Vector.replicate 9 0
  par := Vector.replicate 8 0
  rxp := Vector.replicate 8 0
  sb := []
  cf := []
  bv := []
  rl := []
  resetCount := 0
  rst := false
  pending := []
  resp := .none

end Sys2Proof.Machine
end

