-- ==== Sys2Proof/Machine/Fixed.lean ====
section
/-! DEFINITION. Fixed-point numbers and the one rounding of the block (00_scope.md R8, R9), and the
points the point commands compute with (43_homography.md R170, R172, R182). -/

namespace Sys2Proof.Machine

/-- R9: `RHU(q) = ⌊q + 1/2⌋`, to nearest, a tie toward +∞. -/
def rhu (q : ℚ) : Int := (q + 1 / 2).floor

/-- R182: the range of a coordinate; the raw −2^31 is kept for the sentinel. -/
def representable (r : Int) : Bool := decide (-2 ^ 31 < r) && decide (r < 2 ^ 31)

/-- A point by its two Q16.16 raws, as integers (R170). -/
structure RawPoint where
  x : Int
  y : Int
  deriving DecidableEq, Repr

/-- R181, R182, R196: a rounded point, or `none` (invalid as a whole) when a coordinate is outside
the range. -/
def pointInRange (p : RawPoint) : Option RawPoint :=
  if representable p.x && representable p.y then some p else none

/-- R172: the sentinel, raw 0x80000000. -/
def sentinel : Word := 0x80000000

end Sys2Proof.Machine
end

