-- ==== Sys2Proof/Machine/Flags.lean ====
section
/-! DEFINITION. The error codes (60_exceptions.md R221), the flags, and the words the status
registers read as (10_state.md R28 to R32, R50). -/

namespace Sys2Proof.Machine

/-- The error causes of R221. -/
inductive ErrCode where
  | illegalCmd
  | range
  | gfDivZero
  | gfLogZero
  | parityMismatch
  | hgSingular
  | hgOverflow
  | hgNotValid
  deriving DecidableEq, Repr

/-- R221: the number of an error cause, 1 to 8. -/
def errNumber : ErrCode → Nat
  | .illegalCmd => 1
  | .range => 2
  | .gfDivZero => 3
  | .gfLogZero => 4
  | .parityMismatch => 5
  | .hgSingular => 6
  | .hgOverflow => 7
  | .hgNotValid => 8

/-- `ESTAT` with only bit `c` set, as the field of bits 8:1 (R29). -/
def errBit (c : ErrCode) : BitVec 8 := 1#8 <<< (errNumber c - 1)

/-- One bit of a status word, at position `i`. -/
def flagAt (b : Bool) (i : Nat) : Word := if b then 1#32 <<< i else 0

/-- R228: the level of the interrupt output, high exactly while `(ESTAT & IEN) ≠ 0`. -/
def State.irq (s : State) : Bool := (s.estat &&& s.ien) != 0

/-- R28: the word `STATUS` reads as; `HVALID` is a view of `HCTL.HVALID`. -/
def statusWord (s : State) : Word :=
  s.lastErr.setWidth 32 ||| flagAt s.pmatch 8 ||| flagAt s.pinv 9 ||| flagAt s.oob 10 |||
    flagAt s.hvalid 11 ||| flagAt s.irq 12

/-- R29, R30: a field of bits 8:1 as the word it reads as. -/
def errWord (f : BitVec 8) : Word := f.setWidth 32 <<< 1

/-- R29, R30: bits 8:1 of a word written. -/
def errField (v : Word) : BitVec 8 := v.extractLsb' 1 8

/-- R32: the word `HCTL` reads as. -/
def hctlWord (s : State) : Word := flagAt s.hvalid 0 ||| flagAt s.bnd 1

end Sys2Proof.Machine
end

