-- ==== Sys2Proof/Machine/Ops.lean ====
section
/-! DEFINITION. The named operations over buffers and registers, error entry and acknowledgement
(60_exceptions.md R223, R224, R231), the two resets (45_system.md R212, 70_reset_and_hazards.md
R250). -/

namespace Sys2Proof.Machine

/-- The value written to cell `a` since the last hardware reset, if any. -/
def Memory.get? {w : Nat} : Memory w → Nat → Option (BitVec w)
  | [], _ => none
  | (b, v) :: m, a => if a = b then some v else Memory.get? m a

/-- Write cell `a`, keeping the indices strictly rising. -/
def Memory.set {w : Nat} : Memory w → Nat → BitVec w → Memory w
  | [], a, v => [(a, v)]
  | (b, u) :: m, a, v =>
    if a < b then (a, v) :: (b, u) :: m
    else if a = b then (a, v) :: m
    else (b, u) :: Memory.set m a v

/-- Write the cells `a`, `a + 1`, … with the listed values. -/
def Memory.setFrom {w : Nat} (m : Memory w) (a : Nat) : List (BitVec w) → Memory w
  | [] => m
  | v :: vs => Memory.set (Memory.setFrom m (a + 1) vs) a v

/-- Write the elements `k`, `k + 1`, … of a register file with the listed values. -/
def setCells {α : Type} {n : Nat} (f : Vector α n) (k : Nat) : List α → Vector α n
  | [] => f
  | v :: vs => (setCells f (k + 1) vs).setIfInBounds k v

/-- Element `k` of a register file; `z` stands for the elements that do not exist. -/
def cellOr {α : Type} {n : Nat} (z : α) (f : Vector α n) (k : Nat) : α := f[k]?.getD z

/-- R46, R54: the shard byte `SB[i]`; unspecified until written. -/
def State.sbAt (s : State) (i : Nat) : Byte :=
  (Memory.get? s.sb i).getD (Config.sbAtReset s.resetCount i)

/-- The place of `CF[k][i]` in the coefficient memory (R47; log 15). -/
def cfIndex (k i : Nat) : Nat := 256 * k + i

/-- R47, R54: the coefficient `CF[k][i]`; unspecified until written. -/
def State.cfAt (s : State) (k i : Nat) : Byte :=
  (Memory.get? s.cf (cfIndex k i)).getD (Config.cfAtReset s.resetCount k i)

/-- R48, R54: the bit `BV[i]`; unspecified until written. -/
def State.bvAt (s : State) (i : Nat) : Bit :=
  (Memory.get? s.bv i).getD (Config.bvAtReset s.resetCount i)

/-- R49, R54: the run entry `RL[j]`; unspecified until written. -/
def State.rlAt (s : State) (j : Nat) : Word :=
  (Memory.get? s.rl j).getD (Config.rlAtReset s.resetCount j)

/-- R44: the parity byte `PAR[k]`. -/
def State.parAt (s : State) (k : Nat) : Byte := cellOr 0 s.par k

/-- R45: the received parity byte `RXP[k]`. -/
def State.rxpAt (s : State) (k : Nat) : Byte := cellOr 0 s.rxp k

/-- R78, R141: bit `p` of a byte sequence; the first bit is the most significant bit of the first
byte. -/
def bitOf (bytes : Nat → Byte) (p : Nat) : Bool := (bytes (p / 8)).getLsbD (7 - p % 8)

/-- The number of bytes that hold `n` bits, `⌈n/8⌉` (R142). -/
def bytesFor (n : Nat) : Nat := (n + 7) / 8

/-- R224: error entry. `raise E` inside the command word `w` writes `LASTERR`, sets the sticky bit
of `E`, records `w`, and does nothing else; the command ends. -/
def State.raise (s : State) (c : ErrCode) (w : Word) : State :=
  { s with
    lastErr := BitVec.ofNat 8 (errNumber c)
    estat := s.estat ||| errBit c
    ecmd := w }

/-- R223: a command that ends without error clears `LASTERR`; `ESTAT` and `ECMD` stay. -/
def State.done (s : State) : State := { s with lastErr := 0 }

/-- R29, R231: acknowledging errors, `ESTAT <- ESTAT & ~v`; entry saved nothing, so nothing is
restored. -/
def State.acknowledge (s : State) (v : Word) : State :=
  { s with estat := s.estat &&& ~~~ errField v }

/-- R53, R212: every register of 10_state.md sections 2, 3 and 4 to its reset value; the buffers and
what is outside the block stay. -/
def State.resetRegisters (s : State) : State :=
  { State.reset with
    cfg := s.cfg
    sb := s.sb
    cf := s.cf
    bv := s.bv
    rl := s.rl
    resetCount := s.resetCount
    rst := s.rst
    pending := s.pending
    resp := s.resp }

/-- R53, R54, R250: the hardware reset. The registers hold their reset values and every buffer cell
an unspecified value again, a draw of its own for this reset (log 5). -/
def State.hardReset (s : State) : State :=
  { s.resetRegisters with
    sb := []
    cf := []
    bv := []
    rl := []
    resetCount := s.resetCount + 1 }

end Sys2Proof.Machine
end

