-- ==== Sys2Proof/Machine/Operands.lean ====
section
/-! DEFINITION. The operand forms of the commands: the input point of format S (30_encoding.md R107),
the result point (43_homography.md R172), the bits of format N (41_bitvector.md R140). -/

namespace Sys2Proof.Machine

/-- R107: the input point, `none` when it is not valid. -/
def State.inputPoint (s : State) : PointSel → Option RawPoint
  | .pt => some { x := s.ptx.toInt, y := s.pty.toInt }
  | .r => if s.pinv then none else some { x := s.rx.toInt, y := s.ry.toInt }

/-- R172, R184, R185, R197: the result point of a point command, or the sentinel. -/
def State.setPoint (s : State) : Option RawPoint → State
  | none => { s with rx := sentinel, ry := sentinel, pinv := true }
  | some p => { s with rx := BitVec.ofInt 32 p.x, ry := BitVec.ofInt 32 p.y, pinv := false }

/-- R140: the bit sequence `BV[0], …, BV[n-1]`. -/
def State.bits (s : State) (n : Nat) : List Bit := (List.range n).map s.bvAt

end Sys2Proof.Machine
end

