-- ==== Sys2Proof/Machine/Bus.lean ====
section
/-! DEFINITION. The host's transactions: the address map (20_memory.md R88), what a read returns and
what a write does (R74 to R76), the bus errors (R72, R73), and the reset input
(70_reset_and_hazards.md R250). -/

namespace Sys2Proof.Machine

/-- R88: the registers at 0x000, 0x004, …, 0x074, in the map's order. -/
def lowRegs : List Reg :=
  [.id, .version, .cap0, .cap1, .cmd, .status, .estat, .ien, .ecmd, .gfa, .gfb, .gfr,
   .slen, .prows, .pbits, .rlcnt, .hctl, .ptx, .pty, .rx, .ry, .sclk, .sofx, .sofy,
   .imgw, .imgh, .stride, .pxi, .pyi, .pidx]

/-- `some r` where the cell exists. -/
def cellIf (b : Bool) (r : Reg) : Option Reg := if b then some r else none

/-- An element that takes two words: `lo` at a multiple of 8, `hi` four bytes above. -/
def pairAt (d : Nat) (lo hi : Nat → Reg) : Option Reg :=
  some (if d % 8 = 0 then lo (d / 8) else hi (d / 8))

/-- R88: the register at a byte offset that is a multiple of 4, none where the map lists nothing
(R73), as beyond the implemented capacity of a buffer. -/
def regAt (p : Params) (off : Nat) : Option Reg :=
  if off < 0x78 then lowRegs[off / 4]?
  else if off < 0x80 then none
  else if off < 0xA0 then pairAt (off - 0x80) .srcx .srcy
  else if off < 0xC0 then pairAt (off - 0xA0) .dstx .dsty
  else if off < 0x108 then pairAt (off - 0xC0) .hlo .hhi
  else if off < 0x140 then none
  else if off < 0x188 then pairAt (off - 0x140) .glo .ghi
  else if off < 0x1C0 then none
  else if off < 0x1E0 then cellIf ((off - 0x1C0) / 4 < p.kMax) (.par ((off - 0x1C0) / 4))
  else if off < 0x200 then cellIf ((off - 0x1E0) / 4 < p.kMax) (.rxp ((off - 0x1E0) / 4))
  else if off < 0x400 then none
  else if off < 0x800 then cellIf ((off - 0x400) / 4 < p.sbMax) (.sb ((off - 0x400) / 4))
  else if off < 0x2000 then none
  else if off < 0x4000 then
    let k := (off - 0x2000) / 0x400
    let i := (off - 0x2000) % 0x400 / 4
    cellIf (k < p.kMax && i < p.sbMax) (.cf k i)
  else if off < 0x8000 then cellIf ((off - 0x4000) / 4 < p.bvMax) (.bv ((off - 0x4000) / 4))
  else if off < 0xC000 then cellIf ((off - 0x8000) / 4 < p.bvMax) (.rl ((off - 0x8000) / 4))
  else none

/-- R42, R77: bits 31:0 of a matrix entry. -/
def lowHalf (e : Entry) : Word := e.extractLsb' 0 32

/-- R42, R77: bits 63:32 of a matrix entry. -/
def highHalf (e : Entry) : Word := e.extractLsb' 32 32

/-- R79: a write of one half "takes effect on its own half at once". -/
def setLowHalf (e : Entry) (v : Word) : Entry := highHalf e ++ v

/-- R79: as `setLowHalf`, for bits 63:32. -/
def setHighHalf (e : Entry) (v : Word) : Entry := v ++ lowHalf e

/-- R24: `MAJOR` = 1, `MINOR` = 0. -/
def versionWord : Word := 0x00010000

/-- R25: `K_MAX` in 31:16, `SB_MAX` in 15:0. -/
def cap0Word (p : Params) : Word := BitVec.ofNat 16 p.kMax ++ BitVec.ofNat 16 p.sbMax

/-- R26: `GF_POLY` in 31:16, `BV_MAX` in 15:0. -/
def cap1Word (p : Params) : Word := p.gfPoly.setWidth 16 ++ BitVec.ofNat 16 p.bvMax

/-- R74 to R76: the word a host read of a register returns. No read has a side effect. -/
def State.readReg (s : State) : Reg → Word
  | .id => s.cfg.idValue
  | .version => versionWord
  | .cap0 => cap0Word s.cfg.toParams
  | .cap1 => cap1Word s.cfg.toParams
  | .cmd => 0
  | .status => statusWord s
  | .estat => errWord s.estat
  | .ien => errWord s.ien
  | .ecmd => s.ecmd
  | .gfa => s.gfa.setWidth 32
  | .gfb => s.gfb.setWidth 32
  | .gfr => s.gfr.setWidth 32
  | .slen => s.slen.setWidth 32
  | .prows => s.prows.setWidth 32
  | .pbits => s.pbits.setWidth 32
  | .rlcnt => s.rlcnt.setWidth 32
  | .hctl => hctlWord s
  | .ptx => s.ptx
  | .pty => s.pty
  | .rx => s.rx
  | .ry => s.ry
  | .sclk => s.sclk
  | .sofx => s.sofx
  | .sofy => s.sofy
  | .imgw => s.imgw.setWidth 32
  | .imgh => s.imgh.setWidth 32
  | .stride => s.stride.setWidth 32
  | .pxi => s.pxi
  | .pyi => s.pyi
  | .pidx => s.pidx
  | .srcx i => cellOr 0 s.srcx i
  | .srcy i => cellOr 0 s.srcy i
  | .dstx i => cellOr 0 s.dstx i
  | .dsty i => cellOr 0 s.dsty i
  | .hlo k => lowHalf (cellOr 0 s.h k)
  | .hhi k => highHalf (cellOr 0 s.h k)
  | .glo k => lowHalf (cellOr 0 s.g k)
  | .ghi k => highHalf (cellOr 0 s.g k)
  | .par k => (s.parAt k).setWidth 32
  | .rxp k => (s.rxpAt k).setWidth 32
  | .sb i => (s.sbAt i).setWidth 32
  | .cf k i => (s.cfAt k i).setWidth 32
  | .bv i => (s.bvAt i).setWidth 32
  | .rl j => s.rlAt j

/-- R74 to R76: what a host write does to every register but `CMD` (for which see `serve`): a
read-only register ignores it, a read-write register stores its implemented field, `ESTAT` clears
the bits written as 1. -/
def State.writeReg (s : State) (v : Word) : Reg → State
  | .id => s
  | .version => s
  | .cap0 => s
  | .cap1 => s
  | .cmd => s
  | .status => s
  | .estat => s.acknowledge v
  | .ien => { s with ien := errField v }
  | .ecmd => s
  | .gfa => { s with gfa := v.setWidth 8 }
  | .gfb => { s with gfb := v.setWidth 8 }
  | .gfr => s
  | .slen => { s with slen := v.setWidth 16 }
  | .prows => { s with prows := v.setWidth 4 }
  | .pbits => { s with pbits := v.setWidth 7 }
  | .rlcnt => s
  | .hctl => { s with hvalid := v.getLsbD 0, bnd := v.getLsbD 1 }
  | .ptx => { s with ptx := v }
  | .pty => { s with pty := v }
  | .rx => s
  | .ry => s
  | .sclk => { s with sclk := v }
  | .sofx => { s with sofx := v }
  | .sofy => { s with sofy := v }
  | .imgw => { s with imgw := v.setWidth 16 }
  | .imgh => { s with imgh := v.setWidth 16 }
  | .stride => { s with stride := v.setWidth 16 }
  | .pxi => s
  | .pyi => s
  | .pidx => s
  | .srcx i => { s with srcx := s.srcx.setIfInBounds i v }
  | .srcy i => { s with srcy := s.srcy.setIfInBounds i v }
  | .dstx i => { s with dstx := s.dstx.setIfInBounds i v }
  | .dsty i => { s with dsty := s.dsty.setIfInBounds i v }
  | .hlo k => { s with h := s.h.setIfInBounds k (setLowHalf (cellOr 0 s.h k) v) }
  | .hhi k => { s with h := s.h.setIfInBounds k (setHighHalf (cellOr 0 s.h k) v) }
  | .glo k => { s with g := s.g.setIfInBounds k (setLowHalf (cellOr 0 s.g k) v) }
  | .ghi k => { s with g := s.g.setIfInBounds k (setHighHalf (cellOr 0 s.g k) v) }
  | .par _ => s
  | .rxp k => { s with rxp := s.rxp.setIfInBounds k (v.setWidth 8) }
  | .sb i => { s with sb := Memory.set s.sb i (v.setWidth 8) }
  | .cf k i => { s with cf := Memory.set s.cf (cfIndex k i) (v.setWidth 8) }
  | .bv i => { s with bv := Memory.set s.bv i (v.setWidth 1) }
  | .rl _ => s

/-- The outcome of serving one event. -/
abbrev Result := Host.Outcome State Fault Refusal

/-- R70: the window is 65 536 bytes. -/
def windowSize : Nat := 0x10000

/-- R70, R71: the offset from `BASE` at which a bus address stands in the window, if it does. -/
def windowOffset (p : Params) (addr : Nat) : Option Nat :=
  if p.base ≤ addr ∧ addr < p.base + windowSize then some (addr - p.base) else none

/-- R72, R73, R250: the register that a transaction at an offset of the window reaches, or why there
is no step. -/
def State.target (s : State) (off : Nat) (width : Width) (k : Reg → Result) : Result :=
  if s.rst then .refused .heldInReset
  else if width ≠ .four ∨ off % 4 ≠ 0 then .fault .badTransaction
  else
    match regAt s.cfg.toParams off with
    | none => .fault .unmappedOffset
    | some r => k r

/-- R70: a transaction at a bus address. One inside the window is the block's; one outside is for
another target of the bus, and the block stays as it is and gives no response (DEDUCED, log 4). -/
def State.transaction (s : State) (addr : Nat) (width : Width) (k : Reg → Result) : Result :=
  match windowOffset s.cfg.toParams addr with
  | none => .next { s with resp := .none }
  | some off => s.target off width k

/-- R100: a write of `w` to `CMD` runs the command `w` to completion: an illegal word ends with
ILLEGAL_CMD and changes nothing else (R106), a legal one has the meaning `run` gives it. -/
def State.command (run : Instr → State → Result) (s : State) (w : Word) : Result :=
  match decode w with
  | .ok i => run i s
  | .error _ => .next (s.raise .illegalCmd w)

/-- The write that a command is completes normally (R27, R224). -/
def respond (r : Response) : Result → Result
  | .next s => .next { s with resp := r }
  | .fault e => .fault e
  | .refused e => .refused e

/-- One event of the world outside, served wholly before the next (R89). `run` is the meaning of the
commands. -/
def serve (run : Instr → State → Result) (s : State) : HostEvent → Result
  | .reset true => .next { s.hardReset with rst := true, resp := .none }
  | .reset false => .next { s with rst := false, resp := .none }
  | .read addr width =>
    s.transaction addr width fun r => .next { s with resp := .data (s.readReg r) }
  | .write addr width v =>
    s.transaction addr width fun r =>
      respond .written (if r = .cmd then s.command run v else .next (s.writeReg v r))

/-- R70, R100: the offset of `CMD`. -/
def cmdOffset : Nat := 0x010

/-- The host's write of the command word `w` to the `CMD` of the block with parameters `p` (R100). -/
def commandWrite (p : Params) (w : Word) : HostEvent := .write (p.base + cmdOffset) .four w

end Sys2Proof.Machine
end

