-- ==== Sys2Proof/Machine/BitVector.lean ====
section
/-! DEFINITION. The bit-vector packer (41_bitvector.md R140 to R144). -/

namespace Sys2Proof.Machine

/-- R141: bit `p` of the sequence, 0 past its end. -/
def bitAt (seq : List Bit) (p : Nat) : Bit := seq[p]?.getD 0

/-- R141: byte `j` of the packed form, `Σ bit_at(8·j + t) · 2^(7−t)`. -/
def packByte (seq : List Bit) (j : Nat) : Byte :=
  BitVec.ofNat 8 ((List.range 8).map fun t => (bitAt seq (8 * j + t)).toNat * 2 ^ (7 - t)).sum

/-- R142: the packed form of a bit sequence, `⌈n/8⌉` bytes. -/
def packBytes (seq : List Bit) : List Byte := (List.range (bytesFor seq.length)).map (packByte seq)

/-- R143: the first `n` bits of a byte sequence. -/
def unpackBits (bytes : Nat → Byte) (n : Nat) : List Bit :=
  (List.range n).map fun p => BitVec.ofBool (bitOf bytes p)

/-- One run of identical bits, RC's BitGroup (R49, R144). -/
structure Run where
  bit : Bit
  offset : Nat
  count : Nat
  deriving DecidableEq, Repr

/-- The runs of `seq` when a run of `b` is under way that began at `offset` and has `count` bits. -/
def runsFrom (b : Bit) (offset count : Nat) : List Bit → List Run
  | [] => [{ bit := b, offset := offset, count := count }]
  | c :: seq =>
    if c = b then runsFrom b offset (count + 1) seq
    else { bit := b, offset := offset, count := count } :: runsFrom c (offset + count) 1 seq

/-- R144: the runs of a bit sequence, in order; none for the empty sequence. -/
def runsOf : List Bit → List Run
  | [] => []
  | b :: seq => runsFrom b 0 1 seq

/-- R49, R144: `(b << 31) | (offset << 16) | count`. -/
def runWord (r : Run) : Word :=
  r.bit.setWidth 32 <<< 31 ||| BitVec.ofNat 32 r.offset <<< 16 ||| BitVec.ofNat 32 r.count

/-- PACK n (R142): bits to bytes; RANGE when `n` is above a capacity. -/
def execPack (n : Nat) (s : State) : Host.Outcome State Fault Refusal :=
  if n > s.cfg.bvMax ∨ bytesFor n > s.cfg.sbMax then .next (s.raise .range (encode (.pack n)))
  else .next { s with sb := Memory.setFrom s.sb 0 (packBytes (s.bits n)) }.done

/-- UNPACK n (R143): bytes to bits; RANGE when `n` is above a capacity. -/
def execUnpack (n : Nat) (s : State) : Host.Outcome State Fault Refusal :=
  if n > s.cfg.bvMax ∨ bytesFor n > s.cfg.sbMax then .next (s.raise .range (encode (.unpack n)))
  else .next { s with bv := Memory.setFrom s.bv 0 (unpackBits s.sbAt n) }.done

/-- RLE n (R144): run-length grouping; RANGE when `n` is above the capacity. -/
def execRle (n : Nat) (s : State) : Host.Outcome State Fault Refusal :=
  if n > s.cfg.bvMax then .next (s.raise .range (encode (.rle n)))
  else
    let runs := runsOf (s.bits n)
    .next { s with
      rl := Memory.setFrom s.rl 0 (runs.map runWord)
      rlcnt := BitVec.ofNat 13 runs.length }.done

end Sys2Proof.Machine
end

