-- ==== Sys2Proof/Machine/Gf.lean ====
section
/-! DEFINITION. The GF(256) commands (40_gf256.md R126 to R129). -/

namespace Sys2Proof.Machine

/-- GFMUL (R126): `GFR <- gfmul(GFA, GFB)`. -/
def execGfmul (s : State) : Host.Outcome State Fault Refusal :=
  .next { s with gfr := gfMul s.cfg.gfPoly s.gfa s.gfb }.done

/-- GFDIV (R127): `GFR <- gfdiv(GFA, GFB)`; GF_DIV_ZERO when `GFB` = 0. -/
def execGfdiv (s : State) : Host.Outcome State Fault Refusal :=
  if s.gfb = 0 then .next (s.raise .gfDivZero (encode .gfdiv))
  else .next { s with gfr := gfDiv s.cfg.gfPoly s.gfa s.gfb }.done

/-- GFEXP (R128): `GFR <- EXP[GFA mod 255]`. -/
def execGfexp (s : State) : Host.Outcome State Fault Refusal :=
  .next { s with gfr := gfExp s.cfg.gfPoly s.gfa.toNat }.done

/-- GFLOG (R129): `GFR <- LOG[GFA]`; GF_LOG_ZERO when `GFA` = 0. -/
def execGflog (s : State) : Host.Outcome State Fault Refusal :=
  if s.gfa = 0 then .next (s.raise .gfLogZero (encode .gflog))
  else .next { s with gfr := BitVec.ofNat 8 (gfLog s.cfg.gfPoly s.gfa) }.done

end Sys2Proof.Machine
end

