-- ==== Sys2Proof/Machine/Homography.lean ====
section
/-! DEFINITION. The homography unit (43_homography.md R170 to R187): exact rationals in the solver,
exact integers in the mapper, one rounding at each write. -/

namespace Sys2Proof.Machine

/-- R173: a 3×3 matrix over ℚ, rows `a b c`, `d e f`, `g h i`. -/
@[ext] structure Mat3 where
  a : ℚ
  b : ℚ
  c : ℚ
  d : ℚ
  e : ℚ
  f : ℚ
  g : ℚ
  h : ℚ
  i : ℚ
  deriving DecidableEq, Repr

/-- A column of three rationals (R171). -/
@[ext] structure Col3 where
  x : ℚ
  y : ℚ
  z : ℚ
  deriving DecidableEq, Repr

/-- R173. -/
def det3 (m : Mat3) : ℚ :=
  m.a * (m.e * m.i - m.f * m.h) - m.b * (m.d * m.i - m.f * m.g) + m.c * (m.d * m.h - m.e * m.g)

/-- R173. -/
def adj3 (m : Mat3) : Mat3 where
  a := m.e * m.i - m.f * m.h
  b := m.c * m.h - m.b * m.i
  c := m.b * m.f - m.c * m.e
  d := m.f * m.g - m.d * m.i
  e := m.a * m.i - m.c * m.g
  f := m.c * m.d - m.a * m.f
  g := m.d * m.h - m.e * m.g
  h := m.b * m.g - m.a * m.h
  i := m.a * m.e - m.b * m.d

/-- Every entry divided by `q`. -/
def divEntries (m : Mat3) (q : ℚ) : Mat3 where
  a := m.a / q
  b := m.b / q
  c := m.c / q
  d := m.d / q
  e := m.e / q
  f := m.f / q
  g := m.g / q
  h := m.h / q
  i := m.i / q

/-- R173: the inverse, "defined when det3(m) ≠ 0"; `basisMap` guards its use (log 19). -/
def inv3 (m : Mat3) : Mat3 := divEntries (adj3 m) (det3 m)

/-- R173: the matrix product. -/
def mul3 (p q : Mat3) : Mat3 where
  a := p.a * q.a + p.b * q.d + p.c * q.g
  b := p.a * q.b + p.b * q.e + p.c * q.h
  c := p.a * q.c + p.b * q.f + p.c * q.i
  d := p.d * q.a + p.e * q.d + p.f * q.g
  e := p.d * q.b + p.e * q.e + p.f * q.h
  f := p.d * q.c + p.e * q.f + p.f * q.i
  g := p.g * q.a + p.h * q.d + p.i * q.g
  h := p.g * q.b + p.h * q.e + p.i * q.h
  i := p.g * q.c + p.h * q.f + p.i * q.i

/-- R173: matrix times column. -/
def apply3 (m : Mat3) (v : Col3) : Col3 where
  x := m.a * v.x + m.b * v.y + m.c * v.z
  y := m.d * v.x + m.e * v.y + m.f * v.z
  z := m.g * v.x + m.h * v.y + m.i * v.z

/-- A point of the plane, exactly (R170). -/
structure RatPoint where
  x : ℚ
  y : ℚ
  deriving DecidableEq, Repr

/-- R171: the homogeneous column of a point. -/
def homogeneous (p : RatPoint) : Col3 := { x := p.x, y := p.y, z := 1 }

/-- Four points P0 to P3 (R174). -/
structure FourPoints where
  p0 : RatPoint
  p1 : RatPoint
  p2 : RatPoint
  p3 : RatPoint
  deriving DecidableEq, Repr

/-- R174: `M(P)`, the first three points as a basis. -/
def basisMatrix (p : FourPoints) : Mat3 where
  a := p.p0.x
  b := p.p1.x
  c := p.p2.x
  d := p.p0.y
  e := p.p1.y
  f := p.p2.y
  g := 1
  h := 1
  i := 1

/-- R174: the scale coefficients `(λ0, λ1, λ2)ᵀ = inv3(M(P)) · (x3, y3, 1)ᵀ`. -/
def scaleCoefficients (p : FourPoints) : Col3 := apply3 (inv3 (basisMatrix p)) (homogeneous p.p3)

/-- R174: the columns of `m` scaled by the coefficients `l`. -/
def scaleColumns (m : Mat3) (l : Col3) : Mat3 where
  a := l.x * m.a
  b := l.y * m.b
  c := l.z * m.c
  d := l.x * m.d
  e := l.y * m.e
  f := l.z * m.f
  g := l.x * m.g
  h := l.y * m.h
  i := l.z * m.i

/-- R174: `BasisMap(P)`, none when the basis points lie on one line or a coefficient is 0. -/
def basisMap (p : FourPoints) : Option Mat3 :=
  let m := basisMatrix p
  let l := scaleCoefficients p
  if det3 m = 0 then none
  else if l.x = 0 ∨ l.y = 0 ∨ l.z = 0 then none
  else some (scaleColumns m l)

/-- The rational a Q16.16 raw stands for (R8, R170). -/
def q16 (w : Word) : ℚ := (w.toInt : ℚ) / 2 ^ 16

/-- R180: the four points of a pair of register files, as exact rationals. -/
def pointsOf (xs ys : Vector Word 4) : FourPoints where
  p0 := { x := q16 xs[0], y := q16 ys[0] }
  p1 := { x := q16 xs[1], y := q16 ys[1] }
  p2 := { x := q16 xs[2], y := q16 ys[2] }
  p3 := { x := q16 xs[3], y := q16 ys[3] }

/-- R180: one entry normalised by entry 8 (R175) and rounded to Q32.32. -/
def roundEntry (m : Mat3) (q : ℚ) : Int := rhu (q / m.i * 2 ^ 32)

/-- R175, R180: the nine rounded entries, row major. -/
def roundedEntries (m : Mat3) : Vector Int 9 :=
  #v[roundEntry m m.a, roundEntry m m.b, roundEntry m m.c, roundEntry m m.d, roundEntry m m.e,
    roundEntry m m.f, roundEntry m m.g, roundEntry m m.h, roundEntry m m.i]

/-- R180: nine rounded entries as the `s64` raws of a matrix. -/
def entriesOf (q : Vector Int 9) : Vector Entry 9 :=
  #v[BitVec.ofInt 64 q[0], BitVec.ofInt 64 q[1], BitVec.ofInt 64 q[2], BitVec.ofInt 64 q[3],
    BitVec.ofInt 64 q[4], BitVec.ofInt 64 q[5], BitVec.ofInt 64 q[6], BitVec.ofInt 64 q[7],
    BitVec.ofInt 64 q[8]]

/-- R180: the range of an `s64`. -/
def fits64 (z : Int) : Bool := decide (-2 ^ 63 ≤ z) && decide (z ≤ 2 ^ 63 - 1)

/-- How the solver ends (R180). -/
inductive Solved where
  | singular
  | overflow
  | matrices (h g : Vector Entry 9)
  deriving DecidableEq, Repr

/-- R180: the rounded pair of matrices, or the error; HG_SINGULAR is tested before HG_OVERFLOW. -/
def solve (src dst : FourPoints) : Solved :=
  match basisMap src, basisMap dst with
  | some a, some b =>
    let hx := mul3 b (inv3 a)
    let gx := mul3 a (inv3 b)
    if hx.i = 0 ∨ gx.i = 0 then .singular
    else
      let hq := roundedEntries hx
      let gq := roundedEntries gx
      if hq.toList.all fits64 && gq.toList.all fits64 then
        .matrices (entriesOf hq) (entriesOf gq)
      else .overflow
  | _, _ => .singular

/-- R181: one row of a stored matrix times the point, `t·X + u·Y + v·2^16`. -/
def rowSum (t u v : Entry) (p : RawPoint) : Int := t.toInt * p.x + u.toInt * p.y + v.toInt * 2 ^ 16

/-- R181: `PMap(T, X, Y)`, none when `w` = 0 or a coordinate is outside the range of R182. -/
def projectiveMap (t : Vector Entry 9) (p : RawPoint) : Option RawPoint :=
  let nx := rowSum t[0] t[1] t[2] p
  let ny := rowSum t[3] t[4] t[5] p
  let w := rowSum t[6] t[7] t[8] p
  if w = 0 then none
  else
    pointInRange { x := rhu ((nx * 2 ^ 16 : Int) / (w : ℚ)), y := rhu ((ny * 2 ^ 16 : Int) / (w : ℚ)) }

/-- R186: the unit-square test on the rounded raws, both borders included. -/
def inUnitSquare (p : RawPoint) : Bool :=
  decide (0 ≤ p.x) && decide (p.x ≤ 65536) && decide (0 ≤ p.y) && decide (p.y ≤ 65536)

/-- R185: a mapped point that fails the unit-square test is invalid while `HCTL.BND` = 1. -/
def boundedPoint (bnd : Bool) (p : RawPoint) : Option RawPoint :=
  if bnd && !inUnitSquare p then none else some p

/-- HSOLVE (R180): `H` and `G` from the four correspondences; on an error the matrices stay and
`HVALID` becomes 0. -/
def execHsolve (s : State) : Host.Outcome State Fault Refusal :=
  match solve (pointsOf s.srcx s.srcy) (pointsOf s.dstx s.dsty) with
  | .singular => .next ({ s with hvalid := false }.raise .hgSingular (encode .hsolve))
  | .overflow => .next ({ s with hvalid := false }.raise .hgOverflow (encode .hsolve))
  | .matrices h g => .next { s with h := h, g := g, hvalid := true }.done

/-- HMAP s (R184): map the input point forward by `H`. -/
def execHmap (p : PointSel) (s : State) : Host.Outcome State Fault Refusal :=
  if s.hvalid then .next (s.setPoint ((s.inputPoint p).bind (projectiveMap s.h))).done
  else .next (s.raise .hgNotValid (encode (.hmap p)))

/-- HIMAP s (R185): map the input point backward by `G`, with the unit-square test while `HCTL.BND`
= 1. -/
def execHimap (p : PointSel) (s : State) : Host.Outcome State Fault Refusal :=
  if s.hvalid then
    .next (s.setPoint (((s.inputPoint p).bind (projectiveMap s.g)).bind (boundedPoint s.bnd))).done
  else .next (s.raise .hgNotValid (encode (.himap p)))

end Sys2Proof.Machine
end

