-- ==== Sys2Proof/Machine/Parity.lean ====
section
/-! DEFINITION. The parity generator and checker (42_parity.md R155 to R159). -/

namespace Sys2Proof.Machine

/-- R156: the parity byte `P(k)`, the product of coefficient row `k` with the shard bytes. -/
def State.parityByte (s : State) (k : Nat) : Byte :=
  ((List.range s.slen.toNat).map fun i => gfMul s.cfg.gfPoly (s.cfAt k i) (s.sbAt i)).foldl
    (· ^^^ ·) 0

/-- R156, R158: `P(0), …, P(PROWS−1)`. -/
def State.parityBytes (s : State) : List Byte := (List.range s.prows.toNat).map s.parityByte

/-- R158: the parity bytes into `PAR[0..PROWS−1]`. -/
def State.setParity (s : State) : State := { s with par := setCells s.par 0 s.parityBytes }

/-- R158: the range test of PARGEN. -/
def State.parityOutOfRange (s : State) : Prop :=
  s.slen.toNat > s.cfg.sbMax ∨ s.prows.toNat = 0 ∨ s.prows.toNat > s.cfg.kMax
  deriving Decidable

/-- R159: the range test that PARCHK adds. -/
def State.groupOutOfRange (s : State) : Prop :=
  s.pbits.toNat = 0 ∨ s.pbits.toNat > 8 * s.prows.toNat
  deriving Decidable

/-- R157, R159: the computed and the received group agree in all `PBITS` bits. -/
def State.parityMatches (s : State) : Bool :=
  (List.range s.pbits.toNat).all fun j => bitOf s.parityByte j == bitOf s.rxpAt j

/-- PARGEN (R158): the parity bytes of the shard in `SB`; `PMATCH` is not changed. -/
def execPargen (s : State) : Host.Outcome State Fault Refusal :=
  if s.parityOutOfRange then .next (s.raise .range (encode .pargen))
  else .next s.setParity.done

/-- PARCHK (R159): recompute and compare; PARITY_MISMATCH "after `PAR` has been written and `PMATCH`
set to 0". -/
def execParchk (s : State) : Host.Outcome State Fault Refusal :=
  if s.parityOutOfRange ∨ s.groupOutOfRange then .next (s.raise .range (encode .parchk))
  else if s.parityMatches then .next { s.setParity with pmatch := true }.done
  else .next ({ s.setParity with pmatch := false }.raise .parityMismatch (encode .parchk))

end Sys2Proof.Machine
end

