-- ==== Sys2Proof/Machine/Scaler.lean ====
section
/-! DEFINITION. The fixed-point coordinate scaler (44_scaler.md R195 to R199). -/

namespace Sys2Proof.Machine

/-- R196: one coordinate of the affine function, `RHU((O·2^16 + K·X) / 2^16)`. -/
def affineCoord (k o x : Int) : Int := rhu ((o * 2 ^ 16 + k * x : Int) / (2 ^ 16 : ℚ))

/-- R196: `Affine(X, Y)`, one factor for both coordinates. -/
def State.affine (s : State) (p : RawPoint) : Option RawPoint :=
  pointInRange
    { x := affineCoord s.sclk.toInt s.sofx.toInt p.x
      y := affineCoord s.sclk.toInt s.sofy.toInt p.y }

/-- R198: the nearest integer coordinate of a Q16.16 raw, a tie going up. -/
def nearest (x : Int) : Int := rhu ((x : ℚ) / 2 ^ 16)

/-- R198: `inside`, the bounds check against `IMGW` and `IMGH`. -/
def State.insideImage (s : State) (px py : Int) : Bool :=
  decide (0 ≤ px) && decide (px < s.imgw.toNat) && decide (0 ≤ py) && decide (py < s.imgh.toNat)

/-- R199: what `PIDX` holds when there is no pixel. -/
def noIndex : Word := 0xFFFFFFFF

/-- SCALE s (R197): scale and offset the input point. -/
def execScale (p : PointSel) (s : State) : Host.Outcome State Fault Refusal :=
  .next (s.setPoint ((s.inputPoint p).bind s.affine)).done

/-- NINT s (R199): round the input point to a pixel and index it; `PINV` is not changed. -/
def execNint (p : PointSel) (s : State) : Host.Outcome State Fault Refusal :=
  match s.inputPoint p with
  | none => .next { s with pxi := sentinel, pyi := sentinel, pidx := noIndex, oob := true }.done
  | some q =>
    let px := nearest q.x
    let py := nearest q.y
    let inside := s.insideImage px py
    .next { s with
      pxi := BitVec.ofInt 32 px
      pyi := BitVec.ofInt 32 py
      pidx := if inside then BitVec.ofInt 32 (py * s.stride.toNat + px) else noIndex
      oob := !inside }.done

end Sys2Proof.Machine
end

