-- ==== Sys2Proof/Machine/System.lean ====
section
/-! DEFINITION. The system commands NOP and SRST (45_system.md R210 to R213). -/

namespace Sys2Proof.Machine

/-- NOP (R211): "a command that ended without error", nothing else. -/
def execNop (s : State) : Host.Outcome State Fault Refusal := .next s.done

/-- SRST (R212): every register to its reset value, the buffers "are not touched". -/
def execSrst (s : State) : Host.Outcome State Fault Refusal := .next s.resetRegisters

end Sys2Proof.Machine
end

