-- ==== Sys2Proof/Machine/Dispatch.lean ====
section
/-! DEFINITION. The meaning of each command, one arm per constructor (30_encoding.md R105). -/

namespace Sys2Proof.Machine

def exec (i : Instr) (s : State) : Host.Outcome State Fault Refusal :=
  match i with
  | .nop => Sys2Proof.Machine.execNop s
  | .gfmul => Sys2Proof.Machine.execGfmul s
  | .gfdiv => Sys2Proof.Machine.execGfdiv s
  | .gfexp => Sys2Proof.Machine.execGfexp s
  | .gflog => Sys2Proof.Machine.execGflog s
  | .pack n => Sys2Proof.Machine.execPack n s
  | .unpack n => Sys2Proof.Machine.execUnpack n s
  | .rle n => Sys2Proof.Machine.execRle n s
  | .pargen => Sys2Proof.Machine.execPargen s
  | .parchk => Sys2Proof.Machine.execParchk s
  | .hsolve => Sys2Proof.Machine.execHsolve s
  | .hmap p => Sys2Proof.Machine.execHmap p s
  | .himap p => Sys2Proof.Machine.execHimap p s
  | .scale p => Sys2Proof.Machine.execScale p s
  | .nint p => Sys2Proof.Machine.execNint p s
  | .srst => Sys2Proof.Machine.execSrst s

end Sys2Proof.Machine
end

