-- ==== Sys2Proof/Machine/Step.lean ====
section
/-! DEFINITION. One step: the next event of the world outside is served wholly (20_memory.md R89,
00_scope.md R12). -/

namespace Sys2Proof.Machine

/-- One step. With nothing pending the block stays as it is: it "never takes a step on its own"
(00_scope.md R12; log 1). -/
def step (s : State) : Host.Outcome State Fault Refusal :=
  match s.pending with
  | [] => .next s
  | e :: rest => serve exec { s with pending := rest } e

/-- `s` with the host's write of the command word `w` as its next event, and the reset input
released so that the block serves it (log 1). -/
def State.withFetchWord (s : State) (nbits w : Nat) : State :=
  { s with
    rst := false
    pending := commandWrite s.cfg.toParams (BitVec.ofNat 32 (w % 2 ^ nbits)) :: s.pending }

end Sys2Proof.Machine
end

