-- ==== Sys2Proof/Safety.lean ====
section
/-! DEFINITION. The invariant of the block, what a safe run is, and the address map read from a
register to its offset, in the terms the claims use. -/

namespace Sys2Proof.Machine

/-- 20_memory.md R88: the registers and cells the map lists for these parameters. -/
def Reg.listed (p : Params) : Reg → Prop
  | .srcx i => i < 4
  | .srcy i => i < 4
  | .dstx i => i < 4
  | .dsty i => i < 4
  | .hlo k => k < 9
  | .hhi k => k < 9
  | .glo k => k < 9
  | .ghi k => k < 9
  | .par k => k < p.kMax
  | .rxp k => k < p.kMax
  | .sb i => i < p.sbMax
  | .cf k i => k < p.kMax ∧ i < p.sbMax
  | .bv i => i < p.bvMax
  | .rl j => j < p.bvMax
  | _ => True

/-- 20_memory.md R88: the offset column of the map. -/
def Reg.offset : Reg → Nat
  | .id => 0x000
  | .version => 0x004
  | .cap0 => 0x008
  | .cap1 => 0x00C
  | .cmd => 0x010
  | .status => 0x014
  | .estat => 0x018
  | .ien => 0x01C
  | .ecmd => 0x020
  | .gfa => 0x024
  | .gfb => 0x028
  | .gfr => 0x02C
  | .slen => 0x030
  | .prows => 0x034
  | .pbits => 0x038
  | .rlcnt => 0x03C
  | .hctl => 0x040
  | .ptx => 0x044
  | .pty => 0x048
  | .rx => 0x04C
  | .ry => 0x050
  | .sclk => 0x054
  | .sofx => 0x058
  | .sofy => 0x05C
  | .imgw => 0x060
  | .imgh => 0x064
  | .stride => 0x068
  | .pxi => 0x06C
  | .pyi => 0x070
  | .pidx => 0x074
  | .srcx i => 0x080 + 8 * i
  | .srcy i => 0x084 + 8 * i
  | .dstx i => 0x0A0 + 8 * i
  | .dsty i => 0x0A4 + 8 * i
  | .hlo k => 0x0C0 + 8 * k
  | .hhi k => 0x0C4 + 8 * k
  | .glo k => 0x140 + 8 * k
  | .ghi k => 0x144 + 8 * k
  | .par k => 0x1C0 + 4 * k
  | .rxp k => 0x1E0 + 4 * k
  | .sb i => 0x400 + 4 * i
  | .cf k i => 0x2000 + 0x400 * k + 4 * i
  | .bv i => 0x4000 + 4 * i
  | .rl j => 0x8000 + 4 * j

/-- The buffers are in canonical form and list only cells that exist (10_state.md R46 to R49;
20_memory.md R80). -/
structure State.BuffersOk (s : State) : Prop where
  sb_wf : Memory.wf s.sb
  cf_wf : Memory.wf s.cf
  bv_wf : Memory.wf s.bv
  rl_wf : Memory.wf s.rl
  sb_exists : ∀ c ∈ s.sb, c.1 < s.cfg.sbMax
  cf_exists : ∀ c ∈ s.cf, c.1 / 256 < s.cfg.kMax ∧ c.1 % 256 < s.cfg.sbMax
  bv_exists : ∀ c ∈ s.bv, c.1 < s.cfg.bvMax
  rl_exists : ∀ c ∈ s.rl, c.1 < s.cfg.bvMax

/-- R37: `STATUS.PINV` = 1 exactly while `RX`, `RY` hold the sentinel; "a valid result never has raw
−2^31 in either coordinate". -/
structure State.PointOk (s : State) : Prop where
  invalid : s.pinv = true → s.rx = sentinel ∧ s.ry = sentinel
  valid : s.pinv = false → s.rx ≠ sentinel ∧ s.ry ≠ sentinel

/-- R28, R40: `STATUS.OOB` = 1 exactly while `PIDX` is 0xFFFFFFFF, which "can never be a real index"
(R199). -/
def State.PixelOk (s : State) : Prop := s.oob = true ↔ s.pidx = noIndex

/-- The invariant: what every step keeps, from whatever state it holds in. -/
structure State.Inv (s : State) : Prop where
  buffers : s.BuffersOk
  point : s.PointOk
  pixel : s.PixelOk
  /-- R221: "Codes 9 to 255 … are reserved and never produced". -/
  lastErr : s.lastErr.toNat ≤ 8
  /-- R35: `RLCNT` is 0..BV_MAX. -/
  rlcnt : s.rlcnt.toNat ≤ s.cfg.bvMax
  /-- R44, R45: the elements from `K_MAX` on do not exist. -/
  par : ∀ k, s.cfg.kMax ≤ k → s.parAt k = 0
  rxp : ∀ k, s.cfg.kMax ≤ k → s.rxpAt k = 0
  /-- R250: while `rst` is asserted every register holds its reset value. -/
  held : s.rst = true → s.resetRegisters = s

/-- The next step answers a next state: no bus error, no transaction into a held reset. -/
def State.Safe (s : State) : Prop := ∃ t, step s = .next t

end Sys2Proof.Machine
end

