-- ==== Sys2Proof/Certificates/Slice0/Obligations.lean ====
section
/-! DEFINITION. The statements for the provers. Each docstring names the rules of spec/ that the
statement formalises, or says that it rests on a choice of the model and names the log entry. -/

namespace Sys2Proof.Claims

open Sys2Proof Sys2Proof.Machine

/-- What ending with error number `c` inside the command word `w` leaves (60_exceptions.md R224):
three registers written, the rest of `s` as it is. -/
def withError (s : State) (c : Nat) (w : Word) : State :=
  { s with
    lastErr := BitVec.ofNat 8 c
    estat := s.estat ||| BitVec.ofNat 8 (2 ^ (c - 1))
    ecmd := w }

/-- Format Z (30_encoding.md R102, R106) with opcode `op`: the word with reserved zeros runs `i`,
every other word of that opcode is an illegal command. -/
def FormatZ (op : Byte) (i : Instr) : Prop :=
  ∀ (w : Word) (s : State), opcodeOf w = op →
    s.command exec w =
      if w.extractLsb' 0 24 = 0 then exec i s else .next (withError s 1 w)

/-- Format N (30_encoding.md R103, R106, R107): the count is bits 15:0, bits 23:16 must be 0. -/
def FormatN (op : Byte) (i : Nat → Instr) : Prop :=
  ∀ (w : Word) (s : State), opcodeOf w = op →
    s.command exec w =
      if w.extractLsb' 16 8 = 0 then exec (i (w.extractLsb' 0 16).toNat) s
      else .next (withError s 1 w)

/-- Format S (30_encoding.md R104, R106, R107): bit 0 selects, bits 23:1 must be 0. -/
def FormatS (op : Byte) (i : PointSel → Instr) : Prop :=
  ∀ (w : Word) (s : State), opcodeOf w = op →
    s.command exec w =
      if w.extractLsb' 1 23 = 0 then exec (i (if w.getLsbD 0 then .r else .pt)) s
      else .next (withError s 1 w)

/-- The `match` and `mask` columns of 30_encoding.md R105, row by row. -/
def commandTable : List (Word × Word) :=
  [(0x00000000, 0xFFFFFFFF), (0x01000000, 0xFFFFFFFF), (0x02000000, 0xFFFFFFFF),
   (0x03000000, 0xFFFFFFFF), (0x04000000, 0xFFFFFFFF), (0x10000000, 0xFFFF0000),
   (0x11000000, 0xFFFF0000), (0x12000000, 0xFFFF0000), (0x20000000, 0xFFFFFFFF),
   (0x21000000, 0xFFFFFFFF), (0x30000000, 0xFFFFFFFF), (0x31000000, 0xFFFFFFFE),
   (0x32000000, 0xFFFFFFFE), (0x40000000, 0xFFFFFFFE), (0x41000000, 0xFFFFFFFE),
   (0x7F000000, 0xFFFFFFFF)]

/-- The registers of 10_state.md sections 2, 3 and 4; the others are the buffers of section 5. -/
def IsRegister : Reg → Prop
  | .sb _ => False
  | .cf _ _ => False
  | .bv _ => False
  | .rl _ => False
  | _ => True

/-- The word a register reads as after a reset (10_state.md R53): the constants, `HCTL` =
0x00000002, and 0 for every other register. -/
def resetWord (p : Params) : Reg → Word
  | .id => p.idValue
  | .version => 0x00010000
  | .cap0 => BitVec.ofNat 32 (p.kMax * 2 ^ 16 + p.sbMax)
  | .cap1 => BitVec.ofNat 32 (p.gfPoly.toNat * 2 ^ 16 + p.bvMax)
  | .hctl => 0x00000002
  | _ => 0

/-- The product of 40_gf256.md R124 by the tables. -/
def tableProduct (poly : Poly) (a b : Byte) : Byte :=
  if a = 0 ∨ b = 0 then 0 else alphaPow poly ((gfLog poly a + gfLog poly b) % 255)

/-- The quotient of 40_gf256.md R125 by the tables, for `b ≠ 0`. -/
def tableQuotient (poly : Poly) (a b : Byte) : Byte :=
  if a = 0 then 0
  else alphaPow poly (((gfLog poly a : Int) - gfLog poly b + 255) % 255).toNat

/-- The first `len` terms of the sum of 42_parity.md R156, the empty sum being 0x00. -/
def paritySum (s : State) (k : Nat) : (len : Nat) → Byte
  | 0 => 0
  | i + 1 => paritySum s k i ^^^ tableProduct s.cfg.gfPoly (s.cfAt k i) (s.sbAt i)

/-- The parity byte `P(k)` of 42_parity.md R156, with `L` = `SLEN`. -/
def parity (s : State) (k : Nat) : Byte := paritySum s k s.slen.toNat

/-- Bit `p` of a byte sequence (20_memory.md R78): byte `⌊p/8⌋`, bit `7 − (p mod 8)`. -/
def bitOfBytes (bytes : Nat → Byte) (p : Nat) : Bool := (bytes (p / 8)).getLsbD (7 - p % 8)

/-- The received and the computed parity group agree in the first `PBITS` bits (42_parity.md R157). -/
def GroupsAgree (s : State) : Prop :=
  ∀ j < s.pbits.toNat, bitOfBytes (parity s) j = bitOfBytes s.rxpAt j

/-- The three fields of a run-list entry (10_state.md R49). -/
def runBit (s : State) (j : Nat) : Bit := (s.rlAt j).extractLsb' 31 1
def runOffset (s : State) (j : Nat) : Nat := ((s.rlAt j).extractLsb' 16 15).toNat
def runCount (s : State) (j : Nat) : Nat := ((s.rlAt j).extractLsb' 0 16).toNat

/-- Twice the signed area of a triangle: 0 exactly when the three points lie on one line. -/
def area (p q r : RatPoint) : ℚ := (q.x - p.x) * (r.y - p.y) - (r.x - p.x) * (q.y - p.y)

/-- No three of the four points lie on one line. -/
def GeneralPosition (p : FourPoints) : Prop :=
  area p.p0 p.p1 p.p2 ≠ 0 ∧ area p.p0 p.p1 p.p3 ≠ 0 ∧ area p.p0 p.p2 p.p3 ≠ 0 ∧
    area p.p1 p.p2 p.p3 ≠ 0

/-- The column `k` times a column (43_homography.md R171). -/
def scaled (k : ℚ) (v : Col3) : Col3 := { x := k * v.x, y := k * v.y, z := k * v.z }

/-- The column of `p` is sent to a non-zero multiple of the column of `q`. -/
def Sends (m : Mat3) (p q : RatPoint) : Prop :=
  ∃ k : ℚ, k ≠ 0 ∧ apply3 m (homogeneous p) = scaled k (homogeneous q)

/-- Each of four points is sent to the corresponding one. -/
def SendsAll (m : Mat3) (p q : FourPoints) : Prop :=
  Sends m p.p0 q.p0 ∧ Sends m p.p1 q.p1 ∧ Sends m p.p2 q.p2 ∧ Sends m p.p3 q.p3

/-- Entry `k = 3·row + col` of a matrix (43_homography.md R175). -/
def entryOf (m : Mat3) : Nat → ℚ
  | 0 => m.a
  | 1 => m.b
  | 2 => m.c
  | 3 => m.d
  | 4 => m.e
  | 5 => m.f
  | 6 => m.g
  | 7 => m.h
  | _ => m.i

/-- The rounded entry `RHU((m[k] / m[8]) · 2^32)` of 43_homography.md R180, with the rounding written
out as `⌊q + 1/2⌋`. -/
def roundedEntry (m : Mat3) (k : Nat) : Int := ⌊entryOf m k / m.i * 2 ^ 32 + 1 / 2⌋

/-- A rounded entry fits an `s64` (43_homography.md R180). -/
def EntriesFit (m : Mat3) : Prop :=
  ∀ k < 9, -2 ^ 63 ≤ roundedEntry m k ∧ roundedEntry m k ≤ 2 ^ 63 - 1

def sourcePoints (s : State) : FourPoints := pointsOf s.srcx s.srcy
def destinationPoints (s : State) : FourPoints := pointsOf s.dstx s.dsty

/-- `InputPoint(s)` of 30_encoding.md R107. -/
def input (s : State) : PointSel → Option (Int × Int)
  | .pt => some (s.ptx.toInt, s.pty.toInt)
  | .r => if s.pinv = false then some (s.rx.toInt, s.ry.toInt) else none

/-- A rounded pair as a point, when both coordinates are in the range of 43_homography.md R182. -/
def inRange (x y : Int) : Option (Int × Int) :=
  if -2147483647 ≤ x ∧ x ≤ 2147483647 ∧ -2147483647 ≤ y ∧ y ≤ 2147483647 then some (x, y) else none

/-- `RHU(n / d)` for integers and `d ≠ 0`, as a floor division: `⌊(2n + d) / (2d)⌋` (00_scope.md R9). -/
def roundedQuotient (n d : Int) : Int := Int.fdiv (2 * n + d) (2 * d)

/-- `PMap(T, X, Y)` of 43_homography.md R181 in integers. -/
def mapped (t : Vector Entry 9) : Int × Int → Option (Int × Int)
  | (x, y) =>
    let e (k : Nat) : Int := (cellOr 0 t k).toInt
    let nx := e 0 * x + e 1 * y + e 2 * 65536
    let ny := e 3 * x + e 4 * y + e 5 * 65536
    let w := e 6 * x + e 7 * y + e 8 * 65536
    if w = 0 then none
    else inRange (roundedQuotient (nx * 65536) w) (roundedQuotient (ny * 65536) w)

/-- The unit-square test of 43_homography.md R186, applied while `HCTL.BND` = 1 (R185). -/
def bounded (bnd : Bool) : Int × Int → Option (Int × Int)
  | (x, y) =>
    if bnd = true ∧ ¬(0 ≤ x ∧ x ≤ 65536 ∧ 0 ≤ y ∧ y ≤ 65536) then none else some (x, y)

/-- `Affine(X, Y)` of 44_scaler.md R196 in integers. -/
def affine (s : State) : Int × Int → Option (Int × Int)
  | (x, y) =>
    inRange ((s.sofx.toInt * 65536 + s.sclk.toInt * x + 32768) / 65536)
      ((s.sofy.toInt * 65536 + s.sclk.toInt * y + 32768) / 65536)

/-- What a point command that ends without error leaves (43_homography.md R172): the point, or the
sentinel. -/
def withPoint (s : State) : Option (Int × Int) → State
  | none => { s with rx := 0x80000000, ry := 0x80000000, pinv := true, lastErr := 0 }
  | some (x, y) =>
    { s with rx := BitVec.ofInt 32 x, ry := BitVec.ofInt 32 y, pinv := false, lastErr := 0 }

/-- `px`, `py` of 44_scaler.md R198. -/
def pixel (x : Int) : Int := (x + 32768) / 65536

/-- What NINT leaves (44_scaler.md R198, R199). -/
def withPixel (s : State) : Option (Int × Int) → State
  | none =>
    { s with
      pxi := 0x80000000, pyi := 0x80000000, pidx := 0xFFFFFFFF, oob := true, lastErr := 0 }
  | some (x, y) =>
    if 0 ≤ pixel x ∧ pixel x < s.imgw.toNat ∧ 0 ≤ pixel y ∧ pixel y < s.imgh.toNat then
      { s with
        pxi := BitVec.ofInt 32 (pixel x), pyi := BitVec.ofInt 32 (pixel y)
        pidx := BitVec.ofNat 32 ((pixel y).toNat * s.stride.toNat + (pixel x).toNat)
        oob := false, lastErr := 0 }
    else
      { s with
        pxi := BitVec.ofInt 32 (pixel x), pyi := BitVec.ofInt 32 (pixel y)
        pidx := 0xFFFFFFFF, oob := true, lastErr := 0 }

/-- The implemented bits of a read-write register (20_memory.md R88). -/
def rwBits : Reg → Option Word
  | .ien => some 0x000001FE
  | .gfa => some 0x000000FF
  | .gfb => some 0x000000FF
  | .slen => some 0x0000FFFF
  | .prows => some 0x0000000F
  | .pbits => some 0x0000007F
  | .hctl => some 0x00000003
  | .ptx => some 0xFFFFFFFF
  | .pty => some 0xFFFFFFFF
  | .sclk => some 0xFFFFFFFF
  | .sofx => some 0xFFFFFFFF
  | .sofy => some 0xFFFFFFFF
  | .imgw => some 0x0000FFFF
  | .imgh => some 0x0000FFFF
  | .stride => some 0x0000FFFF
  | .srcx _ => some 0xFFFFFFFF
  | .srcy _ => some 0xFFFFFFFF
  | .dstx _ => some 0xFFFFFFFF
  | .dsty _ => some 0xFFFFFFFF
  | .hlo _ => some 0xFFFFFFFF
  | .hhi _ => some 0xFFFFFFFF
  | .glo _ => some 0xFFFFFFFF
  | .ghi _ => some 0xFFFFFFFF
  | .rxp _ => some 0x000000FF
  | .sb _ => some 0x000000FF
  | .cf _ _ => some 0x000000FF
  | .bv _ => some 0x00000001
  | _ => none

/-- An aligned 32-bit read at offset `off` of the window, as the next event, returns `w` and changes no
register and no buffer (20_memory.md R74). -/
def Reads (off : Nat) (s : State) (w : Word) : Prop :=
  ∀ rest, s.pending = .read (s.cfg.base + off) .four :: rest →
    step s = .next { s with pending := rest, resp := .data w }

/-- An aligned 32-bit write of `v` at offset `off` of the window, as the next event, completes and
leaves `t`. -/
def Writes (off : Nat) (s : State) (v : Word) (t : State) : Prop :=
  ∀ rest, s.pending = .write (s.cfg.base + off) .four v :: rest →
    step s = .next { t with pending := rest, resp := .written }

/-- The low, the high half of a matrix entry (20_memory.md R77). -/
def low (e : Entry) : Word := e.extractLsb' 0 32
def high (e : Entry) : Word := e.extractLsb' 32 32

/-- The word of `STATUS`, field by field (10_state.md R28). -/
def statusFields (s : State) : Word :=
  0#19 ++ BitVec.ofBool ((s.estat &&& s.ien) != 0) ++ BitVec.ofBool s.hvalid ++
    BitVec.ofBool s.oob ++ BitVec.ofBool s.pinv ++ BitVec.ofBool s.pmatch ++ s.lastErr

end Sys2Proof.Claims

open Sys2Proof Sys2Proof.Machine Sys2Proof.Claims

/-! ### Encoding -/

/-- 30_encoding.md R102 to R107, R110: decoding an encoded well-formed command gives it back. -/
def Obligations.DecodeOfEncodeIsTheCommand : Prop :=
  ∀ i : Instr, i.wf = true → decode (encode i) = .ok i

/-- 30_encoding.md R108: a legal word has one reading; the command it decodes to is well formed and
encodes to the same word, so no bit of a legal word is dropped. -/
def Obligations.EncodeOfDecodeIsTheWord : Prop :=
  ∀ (w : Word) (i : Instr), decode w = .ok i → encode i = w ∧ i.wf = true

/-- 30_encoding.md R105: "a word `w` is the command exactly when `w & mask = match`", row by row. -/
def Obligations.CommandTableMatchAndMask : Prop :=
  ∀ w : Word,
    (decode w = .ok .nop ↔ w &&& 0xFFFFFFFF = 0x00000000) ∧
    (decode w = .ok .gfmul ↔ w &&& 0xFFFFFFFF = 0x01000000) ∧
    (decode w = .ok .gfdiv ↔ w &&& 0xFFFFFFFF = 0x02000000) ∧
    (decode w = .ok .gfexp ↔ w &&& 0xFFFFFFFF = 0x03000000) ∧
    (decode w = .ok .gflog ↔ w &&& 0xFFFFFFFF = 0x04000000) ∧
    ((∃ n, decode w = .ok (.pack n)) ↔ w &&& 0xFFFF0000 = 0x10000000) ∧
    ((∃ n, decode w = .ok (.unpack n)) ↔ w &&& 0xFFFF0000 = 0x11000000) ∧
    ((∃ n, decode w = .ok (.rle n)) ↔ w &&& 0xFFFF0000 = 0x12000000) ∧
    (decode w = .ok .pargen ↔ w &&& 0xFFFFFFFF = 0x20000000) ∧
    (decode w = .ok .parchk ↔ w &&& 0xFFFFFFFF = 0x21000000) ∧
    (decode w = .ok .hsolve ↔ w &&& 0xFFFFFFFF = 0x30000000) ∧
    ((∃ p, decode w = .ok (.hmap p)) ↔ w &&& 0xFFFFFFFE = 0x31000000) ∧
    ((∃ p, decode w = .ok (.himap p)) ↔ w &&& 0xFFFFFFFE = 0x32000000) ∧
    ((∃ p, decode w = .ok (.scale p)) ↔ w &&& 0xFFFFFFFE = 0x40000000) ∧
    ((∃ p, decode w = .ok (.nint p)) ↔ w &&& 0xFFFFFFFE = 0x41000000) ∧
    (decode w = .ok .srst ↔ w &&& 0xFFFFFFFF = 0x7F000000)

/-- Words written out from 30_encoding.md R102 to R105 and the examples of 95_test_vectors.md, one
for each family. -/
def Obligations.WrittenOutWordsDecode : Prop :=
  decode 0x00000000 = .ok .nop ∧ decode 0x01000000 = .ok .gfmul ∧
  decode 0x10000014 = .ok (.pack 20) ∧ decode 0x21000000 = .ok .parchk ∧
  decode 0x31000001 = .ok (.hmap .r) ∧ decode 0x41000000 = .ok (.nint .pt) ∧
  decode 0x7F000000 = .ok .srst ∧
  decode 0x05000000 = .error .unassignedOpcode ∧ decode 0x40000002 = .error .reservedNotZero

/-! ### The step -/

/-- 30_encoding.md R100, 20_memory.md R89: a step whose next event is the host's write of a word that
decodes to `i` is exactly `exec i`, with the event taken off the list and the write completed. -/
def Obligations.StepRunsTheDecodedCommand : Prop :=
  ∀ (s : State) (w : Word) (i : Instr) (rest : List HostEvent),
    s.rst = false → s.pending = commandWrite s.cfg.toParams w :: rest → decode w = .ok i →
      step s = respond .written (exec i { s with pending := rest })

/-- 30_encoding.md R106: a word that matches no row of the table "ends with error ILLEGAL_CMD … and
changes nothing else". -/
def Obligations.IllegalWordChangesOnlyErrorRegisters : Prop :=
  ∀ (s : State) (w : Word) (rest : List HostEvent),
    s.rst = false → s.pending = commandWrite s.cfg.toParams w :: rest →
    (∀ row ∈ commandTable, w &&& row.2 ≠ row.1) →
      step s = .next { withError s 1 w with pending := rest, resp := .written }

/-- With no event pending the block stays as it is. Model's choice, log 1, from 00_scope.md R12:
"The block itself never takes a step on its own". -/
def Obligations.IdleStepChangesNothing : Prop :=
  ∀ s : State, s.pending = [] → step s = .next s

/-! ### System commands, reset -/

/-- 45_system.md R211. -/
def Obligations.NopOnlyClearsLasterr : Prop :=
  FormatZ 0x00 .nop ∧ ∀ s : State, exec .nop s = .next { s with lastErr := 0 }

/-- 45_system.md R212: every register to its reset value, the buffers untouched, `irq` low. -/
def Obligations.SrstResetsRegistersAndKeepsBuffers : Prop :=
  FormatZ 0x7F .srst ∧
  ∀ s : State, ∃ t, exec .srst s = .next t ∧
    (∀ r, IsRegister r → t.readReg r = resetWord s.cfg.toParams r) ∧ t.irq = false ∧
    (∀ i, t.sbAt i = s.sbAt i) ∧ (∀ k i, t.cfAt k i = s.cfAt k i) ∧
    (∀ i, t.bvAt i = s.bvAt i) ∧ (∀ j, t.rlAt j = s.rlAt j) ∧
    t.cfg = s.cfg ∧ t.rst = s.rst ∧ t.pending = s.pending ∧ t.resp = s.resp

/-- 10_state.md R53: the reset values, in the state after reset and after a hardware reset that
arrives at any state. -/
def Obligations.HardwareResetGivesResetValues : Prop :=
  (∀ r, IsRegister r → State.reset.readReg r = resetWord State.reset.cfg.toParams r) ∧
  State.reset.irq = false ∧
  ∀ (s : State) (rest : List HostEvent), s.pending = .reset true :: rest →
    ∃ t, step s = .next t ∧ t.rst = true ∧ t.pending = rest ∧ t.cfg = s.cfg ∧
      (∀ r, IsRegister r → t.readReg r = resetWord s.cfg.toParams r) ∧ t.irq = false

/-- 10_state.md R54: after a hardware reset every buffer cell holds an unspecified value. The free
values of Config stand for it (log 5): the cell reads as the draw of this reset, whatever it is. -/
def Obligations.HardwareResetLeavesBuffersUnspecified : Prop :=
  ∀ (s t : State) (rest : List HostEvent), s.pending = .reset true :: rest → step s = .next t →
    ∃ r, r = s.resetCount + 1 ∧
      (∀ i, t.sbAt i = Config.sbAtReset r i) ∧ (∀ k i, t.cfAt k i = Config.cfAtReset r k i) ∧
      (∀ i, t.bvAt i = Config.bvAtReset r i) ∧ (∀ j, t.rlAt j = Config.rlAtReset r j)

/-- 70_reset_and_hazards.md R250: "While `rst` is asserted the block serves no host transaction". The
refusal is the model's form of "no host step in that interval" (log 8). Releasing it changes no
register. -/
def Obligations.HeldInResetServesNothing : Prop :=
  ∀ (s : State) (rest : List HostEvent), s.rst = true →
    (∀ off width, off < 65536 → s.pending = .read (s.cfg.base + off) width :: rest →
      step s = .refused .heldInReset) ∧
    (∀ off width v, off < 65536 → s.pending = .write (s.cfg.base + off) width v :: rest →
      step s = .refused .heldInReset) ∧
    (s.pending = .reset false :: rest →
      step s = .next { s with rst := false, pending := rest, resp := .none })

/-! ### Errors and the interrupt -/

/-- 60_exceptions.md R224, R232: error entry writes the code, ORs the code's bit into `ESTAT`, records
the command word, and does only that. -/
def Obligations.ErrorEntryWritesThreeRegisters : Prop :=
  ∀ (s : State) (c : ErrCode) (w : Word),
    (s.raise c w).lastErr.toNat = errNumber c ∧ (s.raise c w).ecmd = w ∧
    (∀ j < 32, ((s.raise c w).readReg .estat).getLsbD j =
      ((s.readReg .estat).getLsbD j || decide (j = errNumber c))) ∧
    { s.raise c w with lastErr := s.lastErr, estat := s.estat, ecmd := s.ecmd } = s

/-- 60_exceptions.md R225: a command that ends with an error leaves everything but the error
registers as it was, but for PARCHK with PARITY_MISMATCH and HSOLVE with HG_SINGULAR or
HG_OVERFLOW. -/
def Obligations.FailedCommandsArePrecise : Prop :=
  ∀ (s t : State) (w : Word), s.command exec w = .next t → t.lastErr ≠ 0 →
    t.ecmd = w ∧
    (t = { s with lastErr := t.lastErr, estat := t.estat, ecmd := w } ∨
     (w = 0x21000000 ∧ t.lastErr = 5 ∧
      t = { s with
        lastErr := t.lastErr, estat := t.estat, ecmd := w, par := t.par, pmatch := false } ∧
      (∀ k < s.prows.toNat, t.parAt k = parity s k) ∧
      (∀ k, s.prows.toNat ≤ k → t.parAt k = s.parAt k)) ∨
     (w = 0x30000000 ∧ (t.lastErr = 6 ∨ t.lastErr = 7) ∧
      t = { s with lastErr := t.lastErr, estat := t.estat, ecmd := w, hvalid := false }))

/-- 60_exceptions.md R223: a command that ends without error leaves `ESTAT` and `ECMD` unchanged;
SRST (0x7F000000), which 45_system.md R212 lets write them, apart. -/
def Obligations.SuccessfulCommandsKeepErrorRegisters : Prop :=
  ∀ (s t : State) (w : Word), s.command exec w = .next t → t.lastErr = 0 → w ≠ 0x7F000000 →
    t.estat = s.estat ∧ t.ecmd = s.ecmd

/-- 70_reset_and_hazards.md R263, 60_exceptions.md R232: every command word ends, from every state. -/
def Obligations.EveryCommandWordCompletes : Prop :=
  ∀ (s : State) (w : Word), ∃ t, s.command exec w = .next t

/-- 60_exceptions.md R228: `irq` is high exactly while `(ESTAT & IEN) ≠ 0`; `STATUS.IRQ` shows the
same level. -/
def Obligations.InterruptLevelIsAPendingEnabledSource : Prop :=
  ∀ s : State,
    (s.irq = true ↔ s.readReg .estat &&& s.readReg .ien ≠ 0) ∧
    (s.irq = true ↔ ∃ c, 1 ≤ c ∧ c ≤ 8 ∧ (s.readReg .estat).getLsbD c = true ∧
      (s.readReg .ien).getLsbD c = true) ∧
    (s.readReg .status).getLsbD 12 = s.irq

/-- 10_state.md R28: the fields of `STATUS`, its reserved bits 0, and R22: `STATUS.HVALID` is a view of
`HCTL.HVALID`. -/
def Obligations.StatusFieldsStandInTheirBits : Prop :=
  ∀ s : State,
    (s.readReg .status).extractLsb' 0 8 = s.lastErr ∧
    (s.readReg .status).getLsbD 8 = s.pmatch ∧
    (s.readReg .status).getLsbD 9 = s.pinv ∧
    (s.readReg .status).getLsbD 10 = s.oob ∧
    (s.readReg .status).getLsbD 11 = s.hvalid ∧
    (s.readReg .status).getLsbD 11 = (s.readReg .hctl).getLsbD 0 ∧
    (s.readReg .status).getLsbD 12 = s.irq ∧
    (s.readReg .status).extractLsb' 13 19 = 0

/-- 60_exceptions.md R231, 10_state.md R29: the host's write `v` to `ESTAT` does `ESTAT <- ESTAT & ~v`
and nothing else. -/
def Obligations.AcknowledgeClearsTheWrittenBits : Prop :=
  ∀ (s : State) (v : Word) (rest : List HostEvent),
    s.rst = false → s.pending = .write (s.cfg.base + 0x018) .four v :: rest →
    ∃ t, step s = .next t ∧ t.readReg .estat = s.readReg .estat &&& ~~~ v ∧
      t = { s with estat := t.estat, pending := rest, resp := .written }

/-! ### GF(256) -/

/-- 40_gf256.md R121: `xtime` in eight bits, and that a field polynomial is legal exactly when the
powers `α^0 … α^254` are 255 different non-zero bytes and `α^255` = 0x01, as for the default 0x11D
(the check of WellFormed follows the order of `α`, log 11). -/
def Obligations.LegalPolynomialsMakeAlphaAGenerator : Prop :=
  (∀ (p : Poly) (v : Byte), xtime p v =
    if v.getLsbD 7 then (v <<< 1) ^^^ p.setWidth 8 else v <<< 1) ∧
  (∀ p : Poly, isGenerator p = true ↔
    (∀ i < 255, alphaPow p i ≠ 0) ∧
    (∀ i j, i < j → j < 255 → alphaPow p i ≠ alphaPow p j) ∧
    alphaPow p 255 = 0x01) ∧
  (∀ q : Params, q.wf = true → isGenerator q.gfPoly = true) ∧
  isGenerator 0x11D = true

/-- 40_gf256.md R123: `LOG[v]` for `v ≠ 0` is the unique `i` in 0..254 with `EXP[i] = v`. -/
def Obligations.LogIsTheUniqueExponent : Prop :=
  ∀ (c : LegalParams) (v : Byte), v ≠ 0 →
    gfLog c.gfPoly v < 255 ∧ alphaPow c.gfPoly (gfLog c.gfPoly v) = v ∧
    ∀ i < 255, alphaPow c.gfPoly i = v → i = gfLog c.gfPoly v

/-- 40_gf256.md R124: the product by the tables equals the polynomial product reduced modulo the field
polynomial, which `gfMul` is. -/
def Obligations.ProductByTablesIsThePolynomialProduct : Prop :=
  ∀ (c : LegalParams) (a b : Byte), gfMul c.gfPoly a b = tableProduct c.gfPoly a b

/-- 40_gf256.md R125: the quotient by the tables, "the unique `q` with `gfmul(q, b) = a`". -/
def Obligations.QuotientIsTheUniqueInverseOfTheProduct : Prop :=
  ∀ (c : LegalParams) (a b : Byte), b ≠ 0 →
    gfDiv c.gfPoly a b = tableQuotient c.gfPoly a b ∧
    ∀ q : Byte, gfMul c.gfPoly q b = a ↔ q = gfDiv c.gfPoly a b

/-- 40_gf256.md R130: the laws a program may rely on, for every legal field polynomial. -/
def Obligations.FieldLaws : Prop :=
  ∀ (p : LegalParams) (a b c : Byte),
    gfMul p.gfPoly a b = gfMul p.gfPoly b a ∧
    gfMul p.gfPoly (gfMul p.gfPoly a b) c = gfMul p.gfPoly a (gfMul p.gfPoly b c) ∧
    gfMul p.gfPoly a (b ^^^ c) = gfMul p.gfPoly a b ^^^ gfMul p.gfPoly a c ∧
    gfMul p.gfPoly a 0x01 = a ∧ gfMul p.gfPoly a 0x00 = 0x00 ∧
    (gfMul p.gfPoly a b = 0 → a = 0 ∨ b = 0) ∧
    (b ≠ 0 → gfDiv p.gfPoly (gfMul p.gfPoly a b) b = a ∧
      gfMul p.gfPoly (gfDiv p.gfPoly a b) b = a) ∧
    (a ≠ 0 → gfDiv p.gfPoly a a = 0x01)

/-- 40_gf256.md R126. -/
def Obligations.GfmulMultiplies : Prop :=
  FormatZ 0x01 .gfmul ∧
  ∀ s : State, exec .gfmul s =
    .next { s with gfr := tableProduct s.cfg.gfPoly s.gfa s.gfb, lastErr := 0 }

/-- 40_gf256.md R127. -/
def Obligations.GfdivDividesOrRaises : Prop :=
  FormatZ 0x02 .gfdiv ∧
  ∀ s : State,
    (s.gfb = 0 → exec .gfdiv s = .next (withError s 3 0x02000000)) ∧
    (s.gfb ≠ 0 → exec .gfdiv s =
      .next { s with gfr := tableQuotient s.cfg.gfPoly s.gfa s.gfb, lastErr := 0 })

/-- 40_gf256.md R128, with the wrap of the exponent 255 that its corner cases name. -/
def Obligations.GfexpLooksUpTheExponent : Prop :=
  FormatZ 0x03 .gfexp ∧
  ∀ s : State,
    exec .gfexp s =
      .next { s with gfr := alphaPow s.cfg.gfPoly (s.gfa.toNat % 255), lastErr := 0 } ∧
    exec .gfexp s = .next { s with gfr := alphaPow s.cfg.gfPoly s.gfa.toNat, lastErr := 0 }

/-- 40_gf256.md R129. -/
def Obligations.GflogFindsTheExponentOrRaises : Prop :=
  FormatZ 0x04 .gflog ∧
  ∀ s : State,
    (s.gfa = 0 → exec .gflog s = .next (withError s 4 0x04000000)) ∧
    (s.gfa ≠ 0 → ∃ l : Byte, l.toNat < 255 ∧ alphaPow s.cfg.gfPoly l.toNat = s.gfa ∧
      exec .gflog s = .next { s with gfr := l, lastErr := 0 })

/-! ### Bit vector -/

/-- 41_bitvector.md R142: with the order of 20_memory.md R78, bit `p` of the packed bytes is `BV[p]`,
and 0 from `n` on. -/
def Obligations.PackMovesBitsToBytes : Prop :=
  FormatN 0x10 .pack ∧
  ∀ (n : Nat) (s : State),
    (n > s.cfg.bvMax ∨ n > 8 * s.cfg.sbMax →
      exec (.pack n) s = .next (withError s 2 (encode (.pack n)))) ∧
    (n ≤ s.cfg.bvMax → n ≤ 8 * s.cfg.sbMax →
      ∃ t, exec (.pack n) s = .next t ∧
        (∀ p < 8 * ((n + 7) / 8),
          bitOfBytes t.sbAt p = (decide (p < n) && (s.bvAt p).getLsbD 0)) ∧
        (∀ j, (n + 7) / 8 ≤ j → t.sbAt j = s.sbAt j) ∧
        t = { s with sb := t.sb, lastErr := 0 })

/-- 41_bitvector.md R143. -/
def Obligations.UnpackMovesBytesToBits : Prop :=
  FormatN 0x11 .unpack ∧
  ∀ (n : Nat) (s : State),
    (n > s.cfg.bvMax ∨ n > 8 * s.cfg.sbMax →
      exec (.unpack n) s = .next (withError s 2 (encode (.unpack n)))) ∧
    (n ≤ s.cfg.bvMax → n ≤ 8 * s.cfg.sbMax →
      ∃ t, exec (.unpack n) s = .next t ∧
        (∀ p < n, (t.bvAt p).getLsbD 0 = bitOfBytes s.sbAt p) ∧
        (∀ p, n ≤ p → t.bvAt p = s.bvAt p) ∧
        t = { s with bv := t.bv, lastErr := 0 })

/-- 41_bitvector.md R144, R146: the encoding of RLE, its RANGE error, and the run list after a
successful RLE n: maximal runs in order, whose expansion gives `BV[0..n−1]` back. -/
def Obligations.RleGroupsRunsThatExpandToTheBits : Prop :=
  FormatN 0x12 .rle ∧
  ∀ (n : Nat) (s : State),
    (n > s.cfg.bvMax → exec (.rle n) s = .next (withError s 2 (encode (.rle n)))) ∧
    (n ≤ s.cfg.bvMax →
      ∃ t, exec (.rle n) s = .next t ∧
        t = { s with rl := t.rl, rlcnt := t.rlcnt, lastErr := 0 } ∧
        (∀ m, m = t.rlcnt.toNat →
          m ≤ n ∧ (m = 0 ↔ n = 0) ∧
          (0 < m → runOffset t 0 = 0 ∧ runOffset t (m - 1) + runCount t (m - 1) = n) ∧
          (∀ j < m, 1 ≤ runCount t j ∧
            ∀ p, runOffset t j ≤ p → p < runOffset t j + runCount t j → s.bvAt p = runBit t j) ∧
          (∀ j, j + 1 < m → runOffset t (j + 1) = runOffset t j + runCount t j ∧
            runBit t (j + 1) ≠ runBit t j) ∧
          ((List.range m).map (runCount t)).sum = n ∧
          (List.range m).flatMap (fun j => List.replicate (runCount t j) (runBit t j)) =
            (List.range n).map s.bvAt ∧
          ∀ j, m ≤ j → t.rlAt j = s.rlAt j))

/-- 41_bitvector.md R145: both round trips. -/
def Obligations.PackAndUnpackAreRoundTrips : Prop :=
  ∀ (n : Nat) (s : State), n ≤ s.cfg.bvMax → n ≤ 8 * s.cfg.sbMax →
    (∃ t u, exec (.pack n) s = .next t ∧ exec (.unpack n) t = .next u ∧
      ∀ p < n, u.bvAt p = s.bvAt p) ∧
    (∃ t u, exec (.unpack n) s = .next t ∧ exec (.pack n) t = .next u ∧
      (n % 8 = 0 → ∀ j < (n + 7) / 8, u.sbAt j = s.sbAt j) ∧
      (∀ p < 8 * ((n + 7) / 8),
        bitOfBytes u.sbAt p = (decide (p < n) && bitOfBytes s.sbAt p)))

/-! ### Parity -/

/-- 42_parity.md R156, R158. -/
def Obligations.PargenComputesTheParityBytes : Prop :=
  FormatZ 0x20 .pargen ∧
  ∀ s : State,
    (s.slen.toNat > s.cfg.sbMax ∨ s.prows = 0 ∨ s.prows.toNat > s.cfg.kMax →
      exec .pargen s = .next (withError s 2 0x20000000)) ∧
    (s.slen.toNat ≤ s.cfg.sbMax → s.prows ≠ 0 → s.prows.toNat ≤ s.cfg.kMax →
      ∃ t, exec .pargen s = .next t ∧
        (∀ k < s.prows.toNat, t.parAt k = parity s k) ∧
        (∀ k, s.prows.toNat ≤ k → t.parAt k = s.parAt k) ∧
        t = { s with par := t.par, lastErr := 0 })

/-- 42_parity.md R157, R159. -/
def Obligations.ParchkComparesTheParityGroup : Prop :=
  FormatZ 0x21 .parchk ∧
  ∀ s : State,
    (s.slen.toNat > s.cfg.sbMax ∨ s.prows = 0 ∨ s.prows.toNat > s.cfg.kMax ∨ s.pbits = 0 ∨
        s.pbits.toNat > 8 * s.prows.toNat →
      exec .parchk s = .next (withError s 2 0x21000000)) ∧
    (s.slen.toNat ≤ s.cfg.sbMax → s.prows ≠ 0 → s.prows.toNat ≤ s.cfg.kMax → s.pbits ≠ 0 →
        s.pbits.toNat ≤ 8 * s.prows.toNat →
      ∃ t, exec .parchk s = .next t ∧
        (∀ k < s.prows.toNat, t.parAt k = parity s k) ∧
        (∀ k, s.prows.toNat ≤ k → t.parAt k = s.parAt k) ∧
        (GroupsAgree s → t = { s with par := t.par, pmatch := true, lastErr := 0 }) ∧
        (¬GroupsAgree s →
          t = { withError s 5 0x21000000 with par := t.par, pmatch := false }))

/-- 42_parity.md R160 (a), (b): the parity of the bytewise `⊕` of two shards is the `⊕` of their
parities; with every coefficient 0x01 it is the exclusive or of the shard bytes. -/
def Obligations.ParityIsLinearInTheShard : Prop :=
  ∀ (s a b : State) (k : Nat),
    a.cfg = s.cfg → b.cfg = s.cfg → a.slen = s.slen → b.slen = s.slen →
    ((∀ i < s.slen.toNat, a.cfAt k i = s.cfAt k i ∧ b.cfAt k i = s.cfAt k i ∧
        s.sbAt i = a.sbAt i ^^^ b.sbAt i) →
      s.parityByte k = a.parityByte k ^^^ b.parityByte k) ∧
    ((∀ i < s.slen.toNat, s.cfAt k i = 0x01) →
      s.parityByte k = ((List.range s.slen.toNat).map s.sbAt).foldr (· ^^^ ·) 0)

/-- 42_parity.md R160 (d): changing shard byte `i` by a non-zero difference changes `P(k)` by the
product of the coefficient and the difference, which is non-zero exactly when the coefficient is. -/
def Obligations.ByteChangeMovesTheParityByItsProduct : Prop :=
  ∀ (s t : State) (k i : Nat) (d : Byte),
    t.cfg = s.cfg → t.slen = s.slen → (∀ j, t.cfAt k j = s.cfAt k j) → i < s.slen.toNat → d ≠ 0 →
    t.sbAt i = s.sbAt i ^^^ d → (∀ j, j ≠ i → t.sbAt j = s.sbAt j) →
      t.parityByte k = s.parityByte k ^^^ gfMul s.cfg.gfPoly (s.cfAt k i) d ∧
      (t.parityByte k ≠ s.parityByte k ↔ s.cfAt k i ≠ 0)

/-- 42_parity.md R160 (c): changing any one of the `PBITS` compared bits of `RXP` turns a match into a
mismatch. -/
def Obligations.SingleParityBitFlipIsDetected : Prop :=
  ∀ (s : State) (j : Nat), j < s.pbits.toNat → s.pbits.toNat ≤ 8 * s.prows.toNat →
    s.prows.toNat ≤ s.cfg.kMax → s.parityMatches = true →
    State.parityMatches { s with
      rxp := s.rxp.setIfInBounds (j / 8) (s.rxpAt (j / 8) ^^^ BitVec.ofNat 8 (2 ^ (7 - j % 8))) } =
        false

/-! ### Homography -/

/-- 43_homography.md R174: the basis map exists exactly when no three of the four points lie on one
line. -/
def Obligations.BasisMapExistsInGeneralPosition : Prop :=
  ∀ p : FourPoints, basisMap p ≠ none ↔ GeneralPosition p

/-- 43_homography.md R175, R176: the exact, normalised matrices map source points onto destination
points and back, and the second transform is the inverse of the first. -/
def Obligations.ExactHomographyMapsTheFourPoints : Prop :=
  ∀ (src dst : FourPoints) (a b : Mat3), basisMap src = some a → basisMap dst = some b →
    ∀ hx gx : Mat3, hx = mul3 b (inv3 a) → gx = mul3 a (inv3 b) →
      mul3 gx hx = { a := 1, b := 0, c := 0, d := 0, e := 1, f := 0, g := 0, h := 0, i := 1 } ∧
      (hx.i ≠ 0 → SendsAll (divEntries hx hx.i) src dst) ∧
      (gx.i ≠ 0 → SendsAll (divEntries gx gx.i) dst src)

/-- 43_homography.md R180: HSOLVE completes with the rounded matrices, whose entry 8 is exactly 1.0. -/
def Obligations.HsolveStoresTheRoundedMatrices : Prop :=
  FormatZ 0x30 .hsolve ∧
  ∀ (s : State) (a b : Mat3),
    basisMap (sourcePoints s) = some a → basisMap (destinationPoints s) = some b →
    (mul3 b (inv3 a)).i ≠ 0 → (mul3 a (inv3 b)).i ≠ 0 →
    EntriesFit (mul3 b (inv3 a)) → EntriesFit (mul3 a (inv3 b)) →
      ∃ t, exec .hsolve s = .next t ∧
        (∀ k < 9, cellOr 0 t.h k = BitVec.ofInt 64 (roundedEntry (mul3 b (inv3 a)) k) ∧
          cellOr 0 t.g k = BitVec.ofInt 64 (roundedEntry (mul3 a (inv3 b)) k)) ∧
        cellOr 0 t.h 8 = 0x0000000100000000 ∧ cellOr 0 t.g 8 = 0x0000000100000000 ∧
        t = { s with h := t.h, g := t.g, hvalid := true, lastErr := 0 }

/-- 43_homography.md R180: HG_SINGULAR before HG_OVERFLOW, and what each leaves: `HVALID` 0, the
matrices as they were. -/
def Obligations.HsolveRaisesSingularOrOverflow : Prop :=
  ∀ s : State,
    (¬GeneralPosition (sourcePoints s) ∨ ¬GeneralPosition (destinationPoints s) →
      exec .hsolve s = .next { withError s 6 0x30000000 with hvalid := false }) ∧
    (∀ a b, basisMap (sourcePoints s) = some a → basisMap (destinationPoints s) = some b →
      ((mul3 b (inv3 a)).i = 0 ∨ (mul3 a (inv3 b)).i = 0 →
        exec .hsolve s = .next { withError s 6 0x30000000 with hvalid := false }) ∧
      ((mul3 b (inv3 a)).i ≠ 0 → (mul3 a (inv3 b)).i ≠ 0 →
        ¬(EntriesFit (mul3 b (inv3 a)) ∧ EntriesFit (mul3 a (inv3 b))) →
        exec .hsolve s = .next { withError s 7 0x30000000 with hvalid := false }))

/-- 43_homography.md R180, corner case: "equal source and destination sets give the identity in
both". -/
def Obligations.EqualSetsGiveTheIdentity : Prop :=
  ∀ s : State, s.dstx = s.srcx → s.dsty = s.srcy → GeneralPosition (sourcePoints s) →
    exec .hsolve s = .next { s with
      h := #v[0x0000000100000000, 0, 0, 0, 0x0000000100000000, 0, 0, 0, 0x0000000100000000]
      g := #v[0x0000000100000000, 0, 0, 0, 0x0000000100000000, 0, 0, 0, 0x0000000100000000]
      hvalid := true, lastErr := 0 }

/-- 43_homography.md R181, R182, R184: HMAP in integers, one rounding by floor division. -/
def Obligations.HmapMapsForwardByH : Prop :=
  FormatS 0x31 .hmap ∧
  ∀ (p : PointSel) (s : State),
    (s.hvalid = false → exec (.hmap p) s = .next (withError s 8 (encode (.hmap p)))) ∧
    (s.hvalid = true →
      exec (.hmap p) s = .next (withPoint s ((input s p).bind (mapped s.h))))

/-- 43_homography.md R181, R182, R185, R186: HIMAP, with the unit-square test while `HCTL.BND` = 1. -/
def Obligations.HimapMapsBackwardByG : Prop :=
  FormatS 0x32 .himap ∧
  ∀ (p : PointSel) (s : State),
    (s.hvalid = false → exec (.himap p) s = .next (withError s 8 (encode (.himap p)))) ∧
    (s.hvalid = true →
      exec (.himap p) s =
        .next (withPoint s (((input s p).bind (mapped s.g)).bind (bounded s.bnd))))

/-- 43_homography.md R187: "a zero matrix makes every `w` = 0 and every point invalid". -/
def Obligations.ZeroMatrixMapsNoPoint : Prop :=
  ∀ (p : PointSel) (s : State), s.hvalid = true →
    ((∀ k < 9, cellOr 0 s.h k = 0) → exec (.hmap p) s = .next (withPoint s none)) ∧
    ((∀ k < 9, cellOr 0 s.g k = 0) → exec (.himap p) s = .next (withPoint s none))

/-! ### Scaler -/

/-- 00_scope.md R9: the rounding, for rationals and for quotients of integers, with its examples. -/
def Obligations.RhuRoundsToNearestTiesUp : Prop :=
  (∀ q : ℚ, rhu q = ⌊q + 1 / 2⌋) ∧
  (∀ n d : Int, 0 < d → rhu ((n : ℚ) / d) = (2 * n + d) / (2 * d)) ∧
  rhu (1 / 2) = 1 ∧ rhu (3 / 2) = 2 ∧ rhu (-1 / 2) = 0 ∧ rhu (-3 / 2) = -1 ∧ rhu (-6 / 10) = -1

/-- 44_scaler.md R196, R197: SCALE in integers. -/
def Obligations.ScaleScalesAndOffsets : Prop :=
  FormatS 0x40 .scale ∧
  ∀ (p : PointSel) (s : State),
    exec (.scale p) s = .next (withPoint s ((input s p).bind (affine s)))

/-- 44_scaler.md R198, R199: NINT in integers. -/
def Obligations.NintRoundsToAPixelIndex : Prop :=
  FormatS 0x41 .nint ∧
  ∀ (p : PointSel) (s : State), exec (.nint p) s = .next (withPixel s (input s p))

/-! ### The host's registers -/

/-- 20_memory.md R88: the map gives every listed register at its offset, an aligned one of the window
(and aligned as a bus address, `BASE` being a multiple of 4: 00_scope.md R5), and gives a register at no other offset. -/
def Obligations.AddressMapIsTheTable : Prop :=
  ∀ (c : LegalParams) (r : Reg),
    (r.listed c.toParams →
      regAt c.toParams r.offset = some r ∧ r.offset % 4 = 0 ∧ (c.base + r.offset) % 4 = 0 ∧
        r.offset < 65536) ∧
    (∀ off, off % 4 = 0 → regAt c.toParams off = some r → r.listed c.toParams ∧ r.offset = off)

/-- 20_memory.md R71, R74: a host read of a listed register returns it and changes nothing; a host
write of any listed register but `CMD` completes with the effect of `writeReg`. Which fields these are
is said by RegistersReadTheirFields and RegisterWritesReachTheirFields. A transaction at an address
outside the window of R70 leaves the block as it is (the model's reading, log 4). -/
def Obligations.HostTransactionsReachTheListedRegisters : Prop :=
  (∀ (s : State) (r : Reg) (rest : List HostEvent), s.rst = false → r.listed s.cfg.toParams →
    (s.pending = .read (s.cfg.base + r.offset) .four :: rest →
      step s = .next { s with pending := rest, resp := .data (s.readReg r) }) ∧
    (∀ v, r ≠ .cmd → s.pending = .write (s.cfg.base + r.offset) .four v :: rest →
      step s = .next { s.writeReg v r with pending := rest, resp := .written })) ∧
  ∀ (s : State) (e : HostEvent) (addr : Nat) (width : Width) (rest : List HostEvent),
    s.pending = e :: rest → (e = .read addr width ∨ ∃ v, e = .write addr width v) →
    (addr < s.cfg.base ∨ s.cfg.base + 65536 ≤ addr) →
      step s = .next { s with pending := rest, resp := .none }

/-- 20_memory.md R74 to R76: a read-write register stores and returns its implemented bits; every
other register but `ESTAT` and `CMD` ignores the write; `CMD` reads 0. A write to `CMD` runs a command
and is the subject of StepRunsTheDecodedCommand and IllegalWordChangesOnlyErrorRegisters. -/
def Obligations.WrittenRegistersReadBack : Prop :=
  ∀ (s : State) (v : Word) (r : Reg), r.listed s.cfg.toParams →
    (∀ m, rwBits r = some m → (s.writeReg v r).readReg r = v &&& m) ∧
    (rwBits r = none → r ≠ .estat → r ≠ .cmd → s.writeReg v r = s) ∧
    ((s.writeReg v .estat).readReg .estat = s.readReg .estat &&& ~~~ v) ∧
    s.readReg .cmd = 0

/-- 10_state.md R22: "No two registers alias", but for `STATUS`, which shows `HCTL.HVALID` and the
level of `irq`. `CMD` is no register to write: a write to it runs a command. -/
def Obligations.WritesDoNotAlias : Prop :=
  ∀ (s : State) (v : Word) (r q : Reg), r.listed s.cfg.toParams → q.listed s.cfg.toParams →
    r ≠ .cmd → q ≠ r → q ≠ .status → (s.writeReg v r).readReg q = s.readReg q

/-- 20_memory.md R72, R73: a transaction of another width or alignment, and one at an offset the map
does not list, gets the bus error: no step. The stop is the model's form of it (log 7). -/
def Obligations.BadTransactionsAreBusErrors : Prop :=
  ∀ (s : State) (e : HostEvent) (off : Nat) (width : Width) (rest : List HostEvent),
    s.rst = false → s.pending = e :: rest → off < 65536 →
    (e = .read (s.cfg.base + off) width ∨ ∃ v, e = .write (s.cfg.base + off) width v) →
    ((width ≠ .four ∨ off % 4 ≠ 0) → step s = .fault .badTransaction) ∧
    (width = .four → off % 4 = 0 →
      (∀ r : Reg, r.listed s.cfg.toParams → r.offset ≠ off) → step s = .fault .unmappedOffset)

/-! ### Invariants -/

/-- The invariant holds right after reset. -/
def Obligations.ResetMeetsTheInvariant : Prop := State.reset.Inv

/-- Every step keeps the invariant: buffers in canonical form within their capacity (20_memory.md R80),
the sentinel (10_state.md R37), the pixel index (44_scaler.md R199), the error code (60_exceptions.md
R221), `RLCNT` (10_state.md R35), and the registers at their reset values while `rst` is asserted
(70_reset_and_hazards.md R250). -/
def Obligations.EveryStepKeepsTheInvariant : Prop :=
  ∀ s t : State, s.Inv → step s = .next t → t.Inv

/-- 20_memory.md R81: which command moves which buffer; the coefficients are written by the host
only. -/
def Obligations.CommandsWriteOnlyTheirBuffer : Prop :=
  ∀ (s t : State) (i : Instr), exec i s = .next t →
    t.cf = s.cf ∧
    ((∀ n, i ≠ .pack n) → t.sb = s.sb) ∧
    ((∀ n, i ≠ .unpack n) → t.bv = s.bv) ∧
    ((∀ n, i ≠ .rle n) → t.rl = s.rl) ∧
    (∀ j, s.cfg.sbMax ≤ j → t.sbAt j = s.sbAt j) ∧
    (∀ j, s.cfg.bvMax ≤ j → t.bvAt j = s.bvAt j ∧ t.rlAt j = s.rlAt j)

/-- 00_scope.md R5: the parameters are fixed for the block; no step changes them. -/
def Obligations.ParametersNeverChange : Prop :=
  ∀ s t : State, step s = .next t → t.cfg = s.cfg

/-- 20_memory.md R81: the operand registers are written by the host only; of the commands, SRST alone
changes them. -/
def Obligations.CommandsKeepTheHostsRegisters : Prop :=
  ∀ (s t : State) (i : Instr), exec i s = .next t → i ≠ .srst →
    t.ien = s.ien ∧ t.bnd = s.bnd ∧ t.gfa = s.gfa ∧ t.gfb = s.gfb ∧ t.slen = s.slen ∧
    t.prows = s.prows ∧ t.pbits = s.pbits ∧ t.ptx = s.ptx ∧ t.pty = s.pty ∧ t.sclk = s.sclk ∧
    t.sofx = s.sofx ∧ t.sofy = s.sofy ∧ t.imgw = s.imgw ∧ t.imgh = s.imgh ∧
    t.stride = s.stride ∧ t.srcx = s.srcx ∧ t.srcy = s.srcy ∧ t.dstx = s.dstx ∧
    t.dsty = s.dsty ∧ t.rxp = s.rxp

/-! ### The fields that the host reads and writes -/

/-- 20_memory.md R74 to R76, R88, R89: what a read of each register shows, field by field, in every
state: the constants (10_state.md R23 to R26), 0 for `CMD` (R27), and for every other register the
field that the commands and the host's writes use. -/
def Obligations.RegistersReadTheirFields : Prop :=
  ∀ s : State, s.rst = false →
    Reads 0x000 s s.cfg.idValue ∧ Reads 0x004 s 0x00010000 ∧
    Reads 0x008 s (BitVec.ofNat 32 (s.cfg.kMax * 2 ^ 16 + s.cfg.sbMax)) ∧
    Reads 0x00C s (BitVec.ofNat 32 (s.cfg.gfPoly.toNat * 2 ^ 16 + s.cfg.bvMax)) ∧
    Reads 0x010 s 0 ∧ Reads 0x014 s (statusFields s) ∧
    Reads 0x018 s (0#23 ++ s.estat ++ 0#1) ∧ Reads 0x01C s (0#23 ++ s.ien ++ 0#1) ∧
    Reads 0x020 s s.ecmd ∧ Reads 0x024 s (0#24 ++ s.gfa) ∧ Reads 0x028 s (0#24 ++ s.gfb) ∧
    Reads 0x02C s (0#24 ++ s.gfr) ∧ Reads 0x030 s (0#16 ++ s.slen) ∧
    Reads 0x034 s (0#28 ++ s.prows) ∧ Reads 0x038 s (0#25 ++ s.pbits) ∧
    Reads 0x03C s (0#19 ++ s.rlcnt) ∧
    Reads 0x040 s (0#30 ++ BitVec.ofBool s.bnd ++ BitVec.ofBool s.hvalid) ∧
    Reads 0x044 s s.ptx ∧ Reads 0x048 s s.pty ∧ Reads 0x04C s s.rx ∧ Reads 0x050 s s.ry ∧
    Reads 0x054 s s.sclk ∧ Reads 0x058 s s.sofx ∧ Reads 0x05C s s.sofy ∧
    Reads 0x060 s (0#16 ++ s.imgw) ∧ Reads 0x064 s (0#16 ++ s.imgh) ∧
    Reads 0x068 s (0#16 ++ s.stride) ∧
    Reads 0x06C s s.pxi ∧ Reads 0x070 s s.pyi ∧ Reads 0x074 s s.pidx ∧
    (∀ i, ∀ _ : i < 4,
      Reads (0x080 + 8 * i) s s.srcx[i] ∧ Reads (0x084 + 8 * i) s s.srcy[i] ∧
      Reads (0x0A0 + 8 * i) s s.dstx[i] ∧ Reads (0x0A4 + 8 * i) s s.dsty[i]) ∧
    (∀ k, ∀ _ : k < 9,
      Reads (0x0C0 + 8 * k) s (low s.h[k]) ∧ Reads (0x0C4 + 8 * k) s (high s.h[k]) ∧
      Reads (0x140 + 8 * k) s (low s.g[k]) ∧ Reads (0x144 + 8 * k) s (high s.g[k])) ∧
    (∀ k < s.cfg.kMax,
      Reads (0x1C0 + 4 * k) s (0#24 ++ s.parAt k) ∧ Reads (0x1E0 + 4 * k) s (0#24 ++ s.rxpAt k)) ∧
    (∀ i < s.cfg.sbMax, Reads (0x400 + 4 * i) s (0#24 ++ s.sbAt i)) ∧
    (∀ k < s.cfg.kMax, ∀ i < s.cfg.sbMax,
      Reads (0x2000 + 0x400 * k + 4 * i) s (0#24 ++ s.cfAt k i)) ∧
    (∀ i < s.cfg.bvMax, Reads (0x4000 + 4 * i) s (0#31 ++ s.bvAt i)) ∧
    (∀ j < s.cfg.bvMax, Reads (0x8000 + 4 * j) s (s.rlAt j))

/-- 20_memory.md R74 to R76, R79, R88: which field a write to each register but `CMD` reaches, and
that it changes nothing else: read-only registers nothing, `ESTAT` the bits written as 1, read-write
registers their implemented bits, one cell of a buffer. -/
def Obligations.RegisterWritesReachTheirFields : Prop :=
  ∀ (s : State) (v : Word), s.rst = false →
    (∀ off ∈ [0x000, 0x004, 0x008, 0x00C, 0x014, 0x020, 0x02C, 0x03C, 0x04C, 0x050, 0x06C, 0x070,
      0x074], Writes off s v s) ∧
    Writes 0x018 s v { s with estat := s.estat &&& ~~~ v.extractLsb' 1 8 } ∧
    Writes 0x01C s v { s with ien := v.extractLsb' 1 8 } ∧
    Writes 0x024 s v { s with gfa := v.extractLsb' 0 8 } ∧
    Writes 0x028 s v { s with gfb := v.extractLsb' 0 8 } ∧
    Writes 0x030 s v { s with slen := v.extractLsb' 0 16 } ∧
    Writes 0x034 s v { s with prows := v.extractLsb' 0 4 } ∧
    Writes 0x038 s v { s with pbits := v.extractLsb' 0 7 } ∧
    Writes 0x040 s v { s with hvalid := v.getLsbD 0, bnd := v.getLsbD 1 } ∧
    Writes 0x044 s v { s with ptx := v } ∧ Writes 0x048 s v { s with pty := v } ∧
    Writes 0x054 s v { s with sclk := v } ∧ Writes 0x058 s v { s with sofx := v } ∧
    Writes 0x05C s v { s with sofy := v } ∧
    Writes 0x060 s v { s with imgw := v.extractLsb' 0 16 } ∧
    Writes 0x064 s v { s with imgh := v.extractLsb' 0 16 } ∧
    Writes 0x068 s v { s with stride := v.extractLsb' 0 16 } ∧
    (∀ i, ∀ _ : i < 4,
      Writes (0x080 + 8 * i) s v { s with srcx := s.srcx.set i v } ∧
      Writes (0x084 + 8 * i) s v { s with srcy := s.srcy.set i v } ∧
      Writes (0x0A0 + 8 * i) s v { s with dstx := s.dstx.set i v } ∧
      Writes (0x0A4 + 8 * i) s v { s with dsty := s.dsty.set i v }) ∧
    (∀ k, ∀ _ : k < 9,
      Writes (0x0C0 + 8 * k) s v { s with h := s.h.set k (high s.h[k] ++ v) } ∧
      Writes (0x0C4 + 8 * k) s v { s with h := s.h.set k (v ++ low s.h[k]) } ∧
      Writes (0x140 + 8 * k) s v { s with g := s.g.set k (high s.g[k] ++ v) } ∧
      Writes (0x144 + 8 * k) s v { s with g := s.g.set k (v ++ low s.g[k]) }) ∧
    (∀ k < s.cfg.kMax, Writes (0x1C0 + 4 * k) s v s ∧
      ∃ f, Writes (0x1E0 + 4 * k) s v { s with rxp := f } ∧
        ∀ j, State.rxpAt { s with rxp := f } j = if j = k then v.extractLsb' 0 8 else s.rxpAt j) ∧
    (∀ i < s.cfg.sbMax, ∃ m, Writes (0x400 + 4 * i) s v { s with sb := m } ∧
      ∀ j, State.sbAt { s with sb := m } j = if j = i then v.extractLsb' 0 8 else s.sbAt j) ∧
    (∀ k < s.cfg.kMax, ∀ i < s.cfg.sbMax,
      ∃ m, Writes (0x2000 + 0x400 * k + 4 * i) s v { s with cf := m } ∧
        ∀ r, ∀ j < 256, State.cfAt { s with cf := m } r j =
          if r = k ∧ j = i then v.extractLsb' 0 8 else s.cfAt r j) ∧
    (∀ i < s.cfg.bvMax, ∃ m, Writes (0x4000 + 4 * i) s v { s with bv := m } ∧
      ∀ j, State.bvAt { s with bv := m } j = if j = i then v.extractLsb' 0 1 else s.bvAt j) ∧
    (∀ j < s.cfg.bvMax, Writes (0x8000 + 4 * j) s v s)
end

