-- ==== Sys2Proof/Laws/Memory.lean ====
section
/-! SUPPORT. The laws of the buffers (20_memory.md R76, R80): reading after writing, writing keeps
the canonical form, writing lists no cell but the written ones. -/

namespace Sys2Proof.Machine

variable {w : Nat}

@[simp] theorem Memory.get?_nil (a : Nat) : Memory.get? ([] : Memory w) a = none := rfl

theorem Memory.get?_cons (c : Nat × BitVec w) (m : Memory w) (a : Nat) :
    Memory.get? (c :: m) a = if a = c.1 then some c.2 else Memory.get? m a := rfl

/-- A read after a write: the value written, or what the cell held. -/
theorem Memory.get?_set (m : Memory w) (a b : Nat) (v : BitVec w) :
    Memory.get? (Memory.set m a v) b = if b = a then some v else Memory.get? m b := by
  induction m with
  | nil => rfl
  | cons c m ih =>
    unfold Memory.set
    split
    · rfl
    · split
      · subst_vars
        simp only [Memory.get?_cons]
        split <;> rfl
      · simp only [Memory.get?_cons, ih]
        split <;> split <;> first | rfl | omega

@[simp] theorem Memory.get?_set_same (m : Memory w) (a : Nat) (v : BitVec w) :
    Memory.get? (Memory.set m a v) a = some v := by simp [Memory.get?_set]

theorem Memory.get?_set_other (m : Memory w) {a b : Nat} (v : BitVec w) (h : b ≠ a) :
    Memory.get? (Memory.set m a v) b = Memory.get? m b := by simp [Memory.get?_set, h]

/-- A read after a block write: the listed values from `a` on, elsewhere what the cell held. -/
theorem Memory.get?_setFrom (m : Memory w) (a : Nat) (vs : List (BitVec w)) (b : Nat) :
    Memory.get? (Memory.setFrom m a vs) b =
      if a ≤ b ∧ b < a + vs.length then vs[b - a]? else Memory.get? m b := by
  induction vs generalizing a with
  | nil => rw [if_neg (by simp only [List.length_nil]; omega)]; rfl
  | cons v vs ih =>
    simp only [Memory.setFrom, Memory.get?_set, ih, List.length_cons]
    by_cases h : b = a
    · subst h; simp
    · rw [if_neg h]
      by_cases hr : a + 1 ≤ b ∧ b < a + 1 + vs.length
      · rw [if_pos hr, if_pos (by omega), show b - a = (b - (a + 1)) + 1 by omega,
          List.getElem?_cons_succ]
      · rw [if_neg hr, if_neg (by omega)]

/-- A written cell is the one just written or was listed before. -/
theorem Memory.mem_set {m : Memory w} {a : Nat} {v : BitVec w} {c : Nat × BitVec w}
    (h : c ∈ Memory.set m a v) : c = (a, v) ∨ c ∈ m := by
  induction m with
  | nil => simpa [Memory.set] using h
  | cons d m ih =>
    unfold Memory.set at h
    split at h
    · simpa using h
    · split at h
      · rcases List.mem_cons.mp h with h | h
        · exact .inl h
        · exact .inr (List.mem_cons_of_mem _ h)
      · rcases List.mem_cons.mp h with h | h
        · exact .inr (h ▸ List.mem_cons_self)
        · exact (ih h).imp id (List.mem_cons_of_mem _)

theorem Memory.mem_setFrom {m : Memory w} {a : Nat} {vs : List (BitVec w)} {c : Nat × BitVec w}
    (h : c ∈ Memory.setFrom m a vs) : (a ≤ c.1 ∧ c.1 < a + vs.length) ∨ c ∈ m := by
  induction vs generalizing a with
  | nil => exact .inr h
  | cons v vs ih =>
    rcases Memory.mem_set h with rfl | h
    · exact .inl ⟨Nat.le_refl _, by simp⟩
    · refine (ih h).imp (fun h => ?_) id
      simp only [List.length_cons]
      omega

/-- Writing a cell keeps the canonical form. -/
theorem Memory.set_wf {m : Memory w} (h : Memory.wf m) (a : Nat) (v : BitVec w) :
    Memory.wf (Memory.set m a v) := by
  induction m with
  | nil => simp [Memory.set, Memory.wf]
  | cons d m ih =>
    have hd := List.pairwise_cons.mp h
    unfold Memory.set
    split
    · refine List.pairwise_cons.mpr ⟨fun c hc => ?_, h⟩
      rcases List.mem_cons.mp hc with rfl | hc
      · assumption
      · exact Nat.lt_trans ‹_› (hd.1 c hc)
    · split
      · subst_vars
        exact List.pairwise_cons.mpr ⟨hd.1, hd.2⟩
      · refine List.pairwise_cons.mpr ⟨fun c hc => ?_, ih hd.2⟩
        rcases Memory.mem_set hc with rfl | hc
        · show _ < a
          omega
        · exact hd.1 c hc

/-- Writing a block of cells keeps the canonical form. -/
theorem Memory.setFrom_wf {m : Memory w} (h : Memory.wf m) (a : Nat) (vs : List (BitVec w)) :
    Memory.wf (Memory.setFrom m a vs) := by
  induction vs generalizing a with
  | nil => exact h
  | cons v vs ih => exact Memory.set_wf (ih (a + 1)) a v

/-- An element of a register file after a run of elements was written. -/
theorem cellOr_setCells {α : Type} {n : Nat} (z : α) (f : Vector α n) (a : Nat) (vs : List α)
    (h : a + vs.length ≤ n) (b : Nat) :
    cellOr z (setCells f a vs) b =
      if a ≤ b ∧ b < a + vs.length then vs[b - a]?.getD z else cellOr z f b := by
  induction vs generalizing a with
  | nil => rw [if_neg (by simp only [List.length_nil]; omega)]; rfl
  | cons v vs ih =>
    simp only [List.length_cons] at h ⊢
    have hr := ih (a + 1) (by omega)
    simp only [setCells, cellOr, Vector.getElem?_setIfInBounds] at hr ⊢
    by_cases hb : a = b
    · subst hb
      simp [show a < n by omega]
    · rw [if_neg hb, hr]
      by_cases hc : a + 1 ≤ b ∧ b < a + 1 + vs.length
      · rw [if_pos hc, if_pos (by omega), show b - a = (b - (a + 1)) + 1 by omega,
          List.getElem?_cons_succ]
      · rw [if_neg hc, if_neg (by omega)]

end Sys2Proof.Machine
end

