-- ==== Sys2Proof/Laws/State.lean ====
section
/-! SUPPORT. What each named update of the state does to each field, so that no later proof unfolds
a record update. Fields that an update writes are given their new value, the others stay. -/

namespace Sys2Proof.Machine

/-! ### Error entry (60_exceptions.md R224) -/

@[simp] theorem State.raise_cfg (s : State) (c : ErrCode) (w : Word) :
    (s.raise c w).cfg = s.cfg := rfl

@[simp] theorem State.raise_lastErr (s : State) (c : ErrCode) (w : Word) :
    (s.raise c w).lastErr = BitVec.ofNat 8 (errNumber c) := rfl

@[simp] theorem State.raise_pmatch (s : State) (c : ErrCode) (w : Word) :
    (s.raise c w).pmatch = s.pmatch := rfl

@[simp] theorem State.raise_pinv (s : State) (c : ErrCode) (w : Word) :
    (s.raise c w).pinv = s.pinv := rfl

@[simp] theorem State.raise_oob (s : State) (c : ErrCode) (w : Word) :
    (s.raise c w).oob = s.oob := rfl

@[simp] theorem State.raise_estat (s : State) (c : ErrCode) (w : Word) :
    (s.raise c w).estat = s.estat ||| errBit c := rfl

@[simp] theorem State.raise_ien (s : State) (c : ErrCode) (w : Word) :
    (s.raise c w).ien = s.ien := rfl

@[simp] theorem State.raise_ecmd (s : State) (c : ErrCode) (w : Word) :
    (s.raise c w).ecmd = w := rfl

@[simp] theorem State.raise_hvalid (s : State) (c : ErrCode) (w : Word) :
    (s.raise c w).hvalid = s.hvalid := rfl

@[simp] theorem State.raise_bnd (s : State) (c : ErrCode) (w : Word) :
    (s.raise c w).bnd = s.bnd := rfl

@[simp] theorem State.raise_gfa (s : State) (c : ErrCode) (w : Word) :
    (s.raise c w).gfa = s.gfa := rfl

@[simp] theorem State.raise_gfb (s : State) (c : ErrCode) (w : Word) :
    (s.raise c w).gfb = s.gfb := rfl

@[simp] theorem State.raise_gfr (s : State) (c : ErrCode) (w : Word) :
    (s.raise c w).gfr = s.gfr := rfl

@[simp] theorem State.raise_slen (s : State) (c : ErrCode) (w : Word) :
    (s.raise c w).slen = s.slen := rfl

@[simp] theorem State.raise_prows (s : State) (c : ErrCode) (w : Word) :
    (s.raise c w).prows = s.prows := rfl

@[simp] theorem State.raise_pbits (s : State) (c : ErrCode) (w : Word) :
    (s.raise c w).pbits = s.pbits := rfl

@[simp] theorem State.raise_rlcnt (s : State) (c : ErrCode) (w : Word) :
    (s.raise c w).rlcnt = s.rlcnt := rfl

@[simp] theorem State.raise_ptx (s : State) (c : ErrCode) (w : Word) :
    (s.raise c w).ptx = s.ptx := rfl

@[simp] theorem State.raise_pty (s : State) (c : ErrCode) (w : Word) :
    (s.raise c w).pty = s.pty := rfl

@[simp] theorem State.raise_rx (s : State) (c : ErrCode) (w : Word) :
    (s.raise c w).rx = s.rx := rfl

@[simp] theorem State.raise_ry (s : State) (c : ErrCode) (w : Word) :
    (s.raise c w).ry = s.ry := rfl

@[simp] theorem State.raise_sclk (s : State) (c : ErrCode) (w : Word) :
    (s.raise c w).sclk = s.sclk := rfl

@[simp] theorem State.raise_sofx (s : State) (c : ErrCode) (w : Word) :
    (s.raise c w).sofx = s.sofx := rfl

@[simp] theorem State.raise_sofy (s : State) (c : ErrCode) (w : Word) :
    (s.raise c w).sofy = s.sofy := rfl

@[simp] theorem State.raise_imgw (s : State) (c : ErrCode) (w : Word) :
    (s.raise c w).imgw = s.imgw := rfl

@[simp] theorem State.raise_imgh (s : State) (c : ErrCode) (w : Word) :
    (s.raise c w).imgh = s.imgh := rfl

@[simp] theorem State.raise_stride (s : State) (c : ErrCode) (w : Word) :
    (s.raise c w).stride = s.stride := rfl

@[simp] theorem State.raise_pxi (s : State) (c : ErrCode) (w : Word) :
    (s.raise c w).pxi = s.pxi := rfl

@[simp] theorem State.raise_pyi (s : State) (c : ErrCode) (w : Word) :
    (s.raise c w).pyi = s.pyi := rfl

@[simp] theorem State.raise_pidx (s : State) (c : ErrCode) (w : Word) :
    (s.raise c w).pidx = s.pidx := rfl

@[simp] theorem State.raise_srcx (s : State) (c : ErrCode) (w : Word) :
    (s.raise c w).srcx = s.srcx := rfl

@[simp] theorem State.raise_srcy (s : State) (c : ErrCode) (w : Word) :
    (s.raise c w).srcy = s.srcy := rfl

@[simp] theorem State.raise_dstx (s : State) (c : ErrCode) (w : Word) :
    (s.raise c w).dstx = s.dstx := rfl

@[simp] theorem State.raise_dsty (s : State) (c : ErrCode) (w : Word) :
    (s.raise c w).dsty = s.dsty := rfl

@[simp] theorem State.raise_h (s : State) (c : ErrCode) (w : Word) :
    (s.raise c w).h = s.h := rfl

@[simp] theorem State.raise_g (s : State) (c : ErrCode) (w : Word) :
    (s.raise c w).g = s.g := rfl

@[simp] theorem State.raise_par (s : State) (c : ErrCode) (w : Word) :
    (s.raise c w).par = s.par := rfl

@[simp] theorem State.raise_rxp (s : State) (c : ErrCode) (w : Word) :
    (s.raise c w).rxp = s.rxp := rfl

@[simp] theorem State.raise_sb (s : State) (c : ErrCode) (w : Word) :
    (s.raise c w).sb = s.sb := rfl

@[simp] theorem State.raise_cf (s : State) (c : ErrCode) (w : Word) :
    (s.raise c w).cf = s.cf := rfl

@[simp] theorem State.raise_bv (s : State) (c : ErrCode) (w : Word) :
    (s.raise c w).bv = s.bv := rfl

@[simp] theorem State.raise_rl (s : State) (c : ErrCode) (w : Word) :
    (s.raise c w).rl = s.rl := rfl

@[simp] theorem State.raise_resetCount (s : State) (c : ErrCode) (w : Word) :
    (s.raise c w).resetCount = s.resetCount := rfl

@[simp] theorem State.raise_rst (s : State) (c : ErrCode) (w : Word) :
    (s.raise c w).rst = s.rst := rfl

@[simp] theorem State.raise_pending (s : State) (c : ErrCode) (w : Word) :
    (s.raise c w).pending = s.pending := rfl

@[simp] theorem State.raise_resp (s : State) (c : ErrCode) (w : Word) :
    (s.raise c w).resp = s.resp := rfl

/-! ### Ending without error (60_exceptions.md R223) -/

@[simp] theorem State.done_cfg (s : State) :
    (s.done).cfg = s.cfg := rfl

@[simp] theorem State.done_lastErr (s : State) :
    (s.done).lastErr = 0 := rfl

@[simp] theorem State.done_pmatch (s : State) :
    (s.done).pmatch = s.pmatch := rfl

@[simp] theorem State.done_pinv (s : State) :
    (s.done).pinv = s.pinv := rfl

@[simp] theorem State.done_oob (s : State) :
    (s.done).oob = s.oob := rfl

@[simp] theorem State.done_estat (s : State) :
    (s.done).estat = s.estat := rfl

@[simp] theorem State.done_ien (s : State) :
    (s.done).ien = s.ien := rfl

@[simp] theorem State.done_ecmd (s : State) :
    (s.done).ecmd = s.ecmd := rfl

@[simp] theorem State.done_hvalid (s : State) :
    (s.done).hvalid = s.hvalid := rfl

@[simp] theorem State.done_bnd (s : State) :
    (s.done).bnd = s.bnd := rfl

@[simp] theorem State.done_gfa (s : State) :
    (s.done).gfa = s.gfa := rfl

@[simp] theorem State.done_gfb (s : State) :
    (s.done).gfb = s.gfb := rfl

@[simp] theorem State.done_gfr (s : State) :
    (s.done).gfr = s.gfr := rfl

@[simp] theorem State.done_slen (s : State) :
    (s.done).slen = s.slen := rfl

@[simp] theorem State.done_prows (s : State) :
    (s.done).prows = s.prows := rfl

@[simp] theorem State.done_pbits (s : State) :
    (s.done).pbits = s.pbits := rfl

@[simp] theorem State.done_rlcnt (s : State) :
    (s.done).rlcnt = s.rlcnt := rfl

@[simp] theorem State.done_ptx (s : State) :
    (s.done).ptx = s.ptx := rfl

@[simp] theorem State.done_pty (s : State) :
    (s.done).pty = s.pty := rfl

@[simp] theorem State.done_rx (s : State) :
    (s.done).rx = s.rx := rfl

@[simp] theorem State.done_ry (s : State) :
    (s.done).ry = s.ry := rfl

@[simp] theorem State.done_sclk (s : State) :
    (s.done).sclk = s.sclk := rfl

@[simp] theorem State.done_sofx (s : State) :
    (s.done).sofx = s.sofx := rfl

@[simp] theorem State.done_sofy (s : State) :
    (s.done).sofy = s.sofy := rfl

@[simp] theorem State.done_imgw (s : State) :
    (s.done).imgw = s.imgw := rfl

@[simp] theorem State.done_imgh (s : State) :
    (s.done).imgh = s.imgh := rfl

@[simp] theorem State.done_stride (s : State) :
    (s.done).stride = s.stride := rfl

@[simp] theorem State.done_pxi (s : State) :
    (s.done).pxi = s.pxi := rfl

@[simp] theorem State.done_pyi (s : State) :
    (s.done).pyi = s.pyi := rfl

@[simp] theorem State.done_pidx (s : State) :
    (s.done).pidx = s.pidx := rfl

@[simp] theorem State.done_srcx (s : State) :
    (s.done).srcx = s.srcx := rfl

@[simp] theorem State.done_srcy (s : State) :
    (s.done).srcy = s.srcy := rfl

@[simp] theorem State.done_dstx (s : State) :
    (s.done).dstx = s.dstx := rfl

@[simp] theorem State.done_dsty (s : State) :
    (s.done).dsty = s.dsty := rfl

@[simp] theorem State.done_h (s : State) :
    (s.done).h = s.h := rfl

@[simp] theorem State.done_g (s : State) :
    (s.done).g = s.g := rfl

@[simp] theorem State.done_par (s : State) :
    (s.done).par = s.par := rfl

@[simp] theorem State.done_rxp (s : State) :
    (s.done).rxp = s.rxp := rfl

@[simp] theorem State.done_sb (s : State) :
    (s.done).sb = s.sb := rfl

@[simp] theorem State.done_cf (s : State) :
    (s.done).cf = s.cf := rfl

@[simp] theorem State.done_bv (s : State) :
    (s.done).bv = s.bv := rfl

@[simp] theorem State.done_rl (s : State) :
    (s.done).rl = s.rl := rfl

@[simp] theorem State.done_resetCount (s : State) :
    (s.done).resetCount = s.resetCount := rfl

@[simp] theorem State.done_rst (s : State) :
    (s.done).rst = s.rst := rfl

@[simp] theorem State.done_pending (s : State) :
    (s.done).pending = s.pending := rfl

@[simp] theorem State.done_resp (s : State) :
    (s.done).resp = s.resp := rfl

/-! ### Acknowledgement (10_state.md R29) -/

@[simp] theorem State.acknowledge_cfg (s : State) (v : Word) :
    (s.acknowledge v).cfg = s.cfg := rfl

@[simp] theorem State.acknowledge_lastErr (s : State) (v : Word) :
    (s.acknowledge v).lastErr = s.lastErr := rfl

@[simp] theorem State.acknowledge_pmatch (s : State) (v : Word) :
    (s.acknowledge v).pmatch = s.pmatch := rfl

@[simp] theorem State.acknowledge_pinv (s : State) (v : Word) :
    (s.acknowledge v).pinv = s.pinv := rfl

@[simp] theorem State.acknowledge_oob (s : State) (v : Word) :
    (s.acknowledge v).oob = s.oob := rfl

@[simp] theorem State.acknowledge_estat (s : State) (v : Word) :
    (s.acknowledge v).estat = s.estat &&& ~~~ errField v := rfl

@[simp] theorem State.acknowledge_ien (s : State) (v : Word) :
    (s.acknowledge v).ien = s.ien := rfl

@[simp] theorem State.acknowledge_ecmd (s : State) (v : Word) :
    (s.acknowledge v).ecmd = s.ecmd := rfl

@[simp] theorem State.acknowledge_hvalid (s : State) (v : Word) :
    (s.acknowledge v).hvalid = s.hvalid := rfl

@[simp] theorem State.acknowledge_bnd (s : State) (v : Word) :
    (s.acknowledge v).bnd = s.bnd := rfl

@[simp] theorem State.acknowledge_gfa (s : State) (v : Word) :
    (s.acknowledge v).gfa = s.gfa := rfl

@[simp] theorem State.acknowledge_gfb (s : State) (v : Word) :
    (s.acknowledge v).gfb = s.gfb := rfl

@[simp] theorem State.acknowledge_gfr (s : State) (v : Word) :
    (s.acknowledge v).gfr = s.gfr := rfl

@[simp] theorem State.acknowledge_slen (s : State) (v : Word) :
    (s.acknowledge v).slen = s.slen := rfl

@[simp] theorem State.acknowledge_prows (s : State) (v : Word) :
    (s.acknowledge v).prows = s.prows := rfl

@[simp] theorem State.acknowledge_pbits (s : State) (v : Word) :
    (s.acknowledge v).pbits = s.pbits := rfl

@[simp] theorem State.acknowledge_rlcnt (s : State) (v : Word) :
    (s.acknowledge v).rlcnt = s.rlcnt := rfl

@[simp] theorem State.acknowledge_ptx (s : State) (v : Word) :
    (s.acknowledge v).ptx = s.ptx := rfl

@[simp] theorem State.acknowledge_pty (s : State) (v : Word) :
    (s.acknowledge v).pty = s.pty := rfl

@[simp] theorem State.acknowledge_rx (s : State) (v : Word) :
    (s.acknowledge v).rx = s.rx := rfl

@[simp] theorem State.acknowledge_ry (s : State) (v : Word) :
    (s.acknowledge v).ry = s.ry := rfl

@[simp] theorem State.acknowledge_sclk (s : State) (v : Word) :
    (s.acknowledge v).sclk = s.sclk := rfl

@[simp] theorem State.acknowledge_sofx (s : State) (v : Word) :
    (s.acknowledge v).sofx = s.sofx := rfl

@[simp] theorem State.acknowledge_sofy (s : State) (v : Word) :
    (s.acknowledge v).sofy = s.sofy := rfl

@[simp] theorem State.acknowledge_imgw (s : State) (v : Word) :
    (s.acknowledge v).imgw = s.imgw := rfl

@[simp] theorem State.acknowledge_imgh (s : State) (v : Word) :
    (s.acknowledge v).imgh = s.imgh := rfl

@[simp] theorem State.acknowledge_stride (s : State) (v : Word) :
    (s.acknowledge v).stride = s.stride := rfl

@[simp] theorem State.acknowledge_pxi (s : State) (v : Word) :
    (s.acknowledge v).pxi = s.pxi := rfl

@[simp] theorem State.acknowledge_pyi (s : State) (v : Word) :
    (s.acknowledge v).pyi = s.pyi := rfl

@[simp] theorem State.acknowledge_pidx (s : State) (v : Word) :
    (s.acknowledge v).pidx = s.pidx := rfl

@[simp] theorem State.acknowledge_srcx (s : State) (v : Word) :
    (s.acknowledge v).srcx = s.srcx := rfl

@[simp] theorem State.acknowledge_srcy (s : State) (v : Word) :
    (s.acknowledge v).srcy = s.srcy := rfl

@[simp] theorem State.acknowledge_dstx (s : State) (v : Word) :
    (s.acknowledge v).dstx = s.dstx := rfl

@[simp] theorem State.acknowledge_dsty (s : State) (v : Word) :
    (s.acknowledge v).dsty = s.dsty := rfl

@[simp] theorem State.acknowledge_h (s : State) (v : Word) :
    (s.acknowledge v).h = s.h := rfl

@[simp] theorem State.acknowledge_g (s : State) (v : Word) :
    (s.acknowledge v).g = s.g := rfl

@[simp] theorem State.acknowledge_par (s : State) (v : Word) :
    (s.acknowledge v).par = s.par := rfl

@[simp] theorem State.acknowledge_rxp (s : State) (v : Word) :
    (s.acknowledge v).rxp = s.rxp := rfl

@[simp] theorem State.acknowledge_sb (s : State) (v : Word) :
    (s.acknowledge v).sb = s.sb := rfl

@[simp] theorem State.acknowledge_cf (s : State) (v : Word) :
    (s.acknowledge v).cf = s.cf := rfl

@[simp] theorem State.acknowledge_bv (s : State) (v : Word) :
    (s.acknowledge v).bv = s.bv := rfl

@[simp] theorem State.acknowledge_rl (s : State) (v : Word) :
    (s.acknowledge v).rl = s.rl := rfl

@[simp] theorem State.acknowledge_resetCount (s : State) (v : Word) :
    (s.acknowledge v).resetCount = s.resetCount := rfl

@[simp] theorem State.acknowledge_rst (s : State) (v : Word) :
    (s.acknowledge v).rst = s.rst := rfl

@[simp] theorem State.acknowledge_pending (s : State) (v : Word) :
    (s.acknowledge v).pending = s.pending := rfl

@[simp] theorem State.acknowledge_resp (s : State) (v : Word) :
    (s.acknowledge v).resp = s.resp := rfl

/-! ### The registers at their reset values (10_state.md R53) -/

@[simp] theorem State.resetRegisters_cfg (s : State) :
    (s.resetRegisters).cfg = s.cfg := rfl

@[simp] theorem State.resetRegisters_lastErr (s : State) :
    (s.resetRegisters).lastErr = State.reset.lastErr := rfl

@[simp] theorem State.resetRegisters_pmatch (s : State) :
    (s.resetRegisters).pmatch = State.reset.pmatch := rfl

@[simp] theorem State.resetRegisters_pinv (s : State) :
    (s.resetRegisters).pinv = State.reset.pinv := rfl

@[simp] theorem State.resetRegisters_oob (s : State) :
    (s.resetRegisters).oob = State.reset.oob := rfl

@[simp] theorem State.resetRegisters_estat (s : State) :
    (s.resetRegisters).estat = State.reset.estat := rfl

@[simp] theorem State.resetRegisters_ien (s : State) :
    (s.resetRegisters).ien = State.reset.ien := rfl

@[simp] theorem State.resetRegisters_ecmd (s : State) :
    (s.resetRegisters).ecmd = State.reset.ecmd := rfl

@[simp] theorem State.resetRegisters_hvalid (s : State) :
    (s.resetRegisters).hvalid = State.reset.hvalid := rfl

@[simp] theorem State.resetRegisters_bnd (s : State) :
    (s.resetRegisters).bnd = State.reset.bnd := rfl

@[simp] theorem State.resetRegisters_gfa (s : State) :
    (s.resetRegisters).gfa = State.reset.gfa := rfl

@[simp] theorem State.resetRegisters_gfb (s : State) :
    (s.resetRegisters).gfb = State.reset.gfb := rfl

@[simp] theorem State.resetRegisters_gfr (s : State) :
    (s.resetRegisters).gfr = State.reset.gfr := rfl

@[simp] theorem State.resetRegisters_slen (s : State) :
    (s.resetRegisters).slen = State.reset.slen := rfl

@[simp] theorem State.resetRegisters_prows (s : State) :
    (s.resetRegisters).prows = State.reset.prows := rfl

@[simp] theorem State.resetRegisters_pbits (s : State) :
    (s.resetRegisters).pbits = State.reset.pbits := rfl

@[simp] theorem State.resetRegisters_rlcnt (s : State) :
    (s.resetRegisters).rlcnt = State.reset.rlcnt := rfl

@[simp] theorem State.resetRegisters_ptx (s : State) :
    (s.resetRegisters).ptx = State.reset.ptx := rfl

@[simp] theorem State.resetRegisters_pty (s : State) :
    (s.resetRegisters).pty = State.reset.pty := rfl

@[simp] theorem State.resetRegisters_rx (s : State) :
    (s.resetRegisters).rx = State.reset.rx := rfl

@[simp] theorem State.resetRegisters_ry (s : State) :
    (s.resetRegisters).ry = State.reset.ry := rfl

@[simp] theorem State.resetRegisters_sclk (s : State) :
    (s.resetRegisters).sclk = State.reset.sclk := rfl

@[simp] theorem State.resetRegisters_sofx (s : State) :
    (s.resetRegisters).sofx = State.reset.sofx := rfl

@[simp] theorem State.resetRegisters_sofy (s : State) :
    (s.resetRegisters).sofy = State.reset.sofy := rfl

@[simp] theorem State.resetRegisters_imgw (s : State) :
    (s.resetRegisters).imgw = State.reset.imgw := rfl

@[simp] theorem State.resetRegisters_imgh (s : State) :
    (s.resetRegisters).imgh = State.reset.imgh := rfl

@[simp] theorem State.resetRegisters_stride (s : State) :
    (s.resetRegisters).stride = State.reset.stride := rfl

@[simp] theorem State.resetRegisters_pxi (s : State) :
    (s.resetRegisters).pxi = State.reset.pxi := rfl

@[simp] theorem State.resetRegisters_pyi (s : State) :
    (s.resetRegisters).pyi = State.reset.pyi := rfl

@[simp] theorem State.resetRegisters_pidx (s : State) :
    (s.resetRegisters).pidx = State.reset.pidx := rfl

@[simp] theorem State.resetRegisters_srcx (s : State) :
    (s.resetRegisters).srcx = State.reset.srcx := rfl

@[simp] theorem State.resetRegisters_srcy (s : State) :
    (s.resetRegisters).srcy = State.reset.srcy := rfl

@[simp] theorem State.resetRegisters_dstx (s : State) :
    (s.resetRegisters).dstx = State.reset.dstx := rfl

@[simp] theorem State.resetRegisters_dsty (s : State) :
    (s.resetRegisters).dsty = State.reset.dsty := rfl

@[simp] theorem State.resetRegisters_h (s : State) :
    (s.resetRegisters).h = State.reset.h := rfl

@[simp] theorem State.resetRegisters_g (s : State) :
    (s.resetRegisters).g = State.reset.g := rfl

@[simp] theorem State.resetRegisters_par (s : State) :
    (s.resetRegisters).par = State.reset.par := rfl

@[simp] theorem State.resetRegisters_rxp (s : State) :
    (s.resetRegisters).rxp = State.reset.rxp := rfl

@[simp] theorem State.resetRegisters_sb (s : State) :
    (s.resetRegisters).sb = s.sb := rfl

@[simp] theorem State.resetRegisters_cf (s : State) :
    (s.resetRegisters).cf = s.cf := rfl

@[simp] theorem State.resetRegisters_bv (s : State) :
    (s.resetRegisters).bv = s.bv := rfl

@[simp] theorem State.resetRegisters_rl (s : State) :
    (s.resetRegisters).rl = s.rl := rfl

@[simp] theorem State.resetRegisters_resetCount (s : State) :
    (s.resetRegisters).resetCount = s.resetCount := rfl

@[simp] theorem State.resetRegisters_rst (s : State) :
    (s.resetRegisters).rst = s.rst := rfl

@[simp] theorem State.resetRegisters_pending (s : State) :
    (s.resetRegisters).pending = s.pending := rfl

@[simp] theorem State.resetRegisters_resp (s : State) :
    (s.resetRegisters).resp = s.resp := rfl

/-! ### The hardware reset (70_reset_and_hazards.md R250) -/

@[simp] theorem State.hardReset_cfg (s : State) :
    (s.hardReset).cfg = s.cfg := rfl

@[simp] theorem State.hardReset_lastErr (s : State) :
    (s.hardReset).lastErr = State.reset.lastErr := rfl

@[simp] theorem State.hardReset_pmatch (s : State) :
    (s.hardReset).pmatch = State.reset.pmatch := rfl

@[simp] theorem State.hardReset_pinv (s : State) :
    (s.hardReset).pinv = State.reset.pinv := rfl

@[simp] theorem State.hardReset_oob (s : State) :
    (s.hardReset).oob = State.reset.oob := rfl

@[simp] theorem State.hardReset_estat (s : State) :
    (s.hardReset).estat = State.reset.estat := rfl

@[simp] theorem State.hardReset_ien (s : State) :
    (s.hardReset).ien = State.reset.ien := rfl

@[simp] theorem State.hardReset_ecmd (s : State) :
    (s.hardReset).ecmd = State.reset.ecmd := rfl

@[simp] theorem State.hardReset_hvalid (s : State) :
    (s.hardReset).hvalid = State.reset.hvalid := rfl

@[simp] theorem State.hardReset_bnd (s : State) :
    (s.hardReset).bnd = State.reset.bnd := rfl

@[simp] theorem State.hardReset_gfa (s : State) :
    (s.hardReset).gfa = State.reset.gfa := rfl

@[simp] theorem State.hardReset_gfb (s : State) :
    (s.hardReset).gfb = State.reset.gfb := rfl

@[simp] theorem State.hardReset_gfr (s : State) :
    (s.hardReset).gfr = State.reset.gfr := rfl

@[simp] theorem State.hardReset_slen (s : State) :
    (s.hardReset).slen = State.reset.slen := rfl

@[simp] theorem State.hardReset_prows (s : State) :
    (s.hardReset).prows = State.reset.prows := rfl

@[simp] theorem State.hardReset_pbits (s : State) :
    (s.hardReset).pbits = State.reset.pbits := rfl

@[simp] theorem State.hardReset_rlcnt (s : State) :
    (s.hardReset).rlcnt = State.reset.rlcnt := rfl

@[simp] theorem State.hardReset_ptx (s : State) :
    (s.hardReset).ptx = State.reset.ptx := rfl

@[simp] theorem State.hardReset_pty (s : State) :
    (s.hardReset).pty = State.reset.pty := rfl

@[simp] theorem State.hardReset_rx (s : State) :
    (s.hardReset).rx = State.reset.rx := rfl

@[simp] theorem State.hardReset_ry (s : State) :
    (s.hardReset).ry = State.reset.ry := rfl

@[simp] theorem State.hardReset_sclk (s : State) :
    (s.hardReset).sclk = State.reset.sclk := rfl

@[simp] theorem State.hardReset_sofx (s : State) :
    (s.hardReset).sofx = State.reset.sofx := rfl

@[simp] theorem State.hardReset_sofy (s : State) :
    (s.hardReset).sofy = State.reset.sofy := rfl

@[simp] theorem State.hardReset_imgw (s : State) :
    (s.hardReset).imgw = State.reset.imgw := rfl

@[simp] theorem State.hardReset_imgh (s : State) :
    (s.hardReset).imgh = State.reset.imgh := rfl

@[simp] theorem State.hardReset_stride (s : State) :
    (s.hardReset).stride = State.reset.stride := rfl

@[simp] theorem State.hardReset_pxi (s : State) :
    (s.hardReset).pxi = State.reset.pxi := rfl

@[simp] theorem State.hardReset_pyi (s : State) :
    (s.hardReset).pyi = State.reset.pyi := rfl

@[simp] theorem State.hardReset_pidx (s : State) :
    (s.hardReset).pidx = State.reset.pidx := rfl

@[simp] theorem State.hardReset_srcx (s : State) :
    (s.hardReset).srcx = State.reset.srcx := rfl

@[simp] theorem State.hardReset_srcy (s : State) :
    (s.hardReset).srcy = State.reset.srcy := rfl

@[simp] theorem State.hardReset_dstx (s : State) :
    (s.hardReset).dstx = State.reset.dstx := rfl

@[simp] theorem State.hardReset_dsty (s : State) :
    (s.hardReset).dsty = State.reset.dsty := rfl

@[simp] theorem State.hardReset_h (s : State) :
    (s.hardReset).h = State.reset.h := rfl

@[simp] theorem State.hardReset_g (s : State) :
    (s.hardReset).g = State.reset.g := rfl

@[simp] theorem State.hardReset_par (s : State) :
    (s.hardReset).par = State.reset.par := rfl

@[simp] theorem State.hardReset_rxp (s : State) :
    (s.hardReset).rxp = State.reset.rxp := rfl

@[simp] theorem State.hardReset_sb (s : State) :
    (s.hardReset).sb = [] := rfl

@[simp] theorem State.hardReset_cf (s : State) :
    (s.hardReset).cf = [] := rfl

@[simp] theorem State.hardReset_bv (s : State) :
    (s.hardReset).bv = [] := rfl

@[simp] theorem State.hardReset_rl (s : State) :
    (s.hardReset).rl = [] := rfl

@[simp] theorem State.hardReset_resetCount (s : State) :
    (s.hardReset).resetCount = s.resetCount + 1 := rfl

@[simp] theorem State.hardReset_rst (s : State) :
    (s.hardReset).rst = s.rst := rfl

@[simp] theorem State.hardReset_pending (s : State) :
    (s.hardReset).pending = s.pending := rfl

@[simp] theorem State.hardReset_resp (s : State) :
    (s.hardReset).resp = s.resp := rfl

/-! ### The parity bytes (42_parity.md R158) -/

@[simp] theorem State.setParity_cfg (s : State) :
    (s.setParity).cfg = s.cfg := rfl

@[simp] theorem State.setParity_lastErr (s : State) :
    (s.setParity).lastErr = s.lastErr := rfl

@[simp] theorem State.setParity_pmatch (s : State) :
    (s.setParity).pmatch = s.pmatch := rfl

@[simp] theorem State.setParity_pinv (s : State) :
    (s.setParity).pinv = s.pinv := rfl

@[simp] theorem State.setParity_oob (s : State) :
    (s.setParity).oob = s.oob := rfl

@[simp] theorem State.setParity_estat (s : State) :
    (s.setParity).estat = s.estat := rfl

@[simp] theorem State.setParity_ien (s : State) :
    (s.setParity).ien = s.ien := rfl

@[simp] theorem State.setParity_ecmd (s : State) :
    (s.setParity).ecmd = s.ecmd := rfl

@[simp] theorem State.setParity_hvalid (s : State) :
    (s.setParity).hvalid = s.hvalid := rfl

@[simp] theorem State.setParity_bnd (s : State) :
    (s.setParity).bnd = s.bnd := rfl

@[simp] theorem State.setParity_gfa (s : State) :
    (s.setParity).gfa = s.gfa := rfl

@[simp] theorem State.setParity_gfb (s : State) :
    (s.setParity).gfb = s.gfb := rfl

@[simp] theorem State.setParity_gfr (s : State) :
    (s.setParity).gfr = s.gfr := rfl

@[simp] theorem State.setParity_slen (s : State) :
    (s.setParity).slen = s.slen := rfl

@[simp] theorem State.setParity_prows (s : State) :
    (s.setParity).prows = s.prows := rfl

@[simp] theorem State.setParity_pbits (s : State) :
    (s.setParity).pbits = s.pbits := rfl

@[simp] theorem State.setParity_rlcnt (s : State) :
    (s.setParity).rlcnt = s.rlcnt := rfl

@[simp] theorem State.setParity_ptx (s : State) :
    (s.setParity).ptx = s.ptx := rfl

@[simp] theorem State.setParity_pty (s : State) :
    (s.setParity).pty = s.pty := rfl

@[simp] theorem State.setParity_rx (s : State) :
    (s.setParity).rx = s.rx := rfl

@[simp] theorem State.setParity_ry (s : State) :
    (s.setParity).ry = s.ry := rfl

@[simp] theorem State.setParity_sclk (s : State) :
    (s.setParity).sclk = s.sclk := rfl

@[simp] theorem State.setParity_sofx (s : State) :
    (s.setParity).sofx = s.sofx := rfl

@[simp] theorem State.setParity_sofy (s : State) :
    (s.setParity).sofy = s.sofy := rfl

@[simp] theorem State.setParity_imgw (s : State) :
    (s.setParity).imgw = s.imgw := rfl

@[simp] theorem State.setParity_imgh (s : State) :
    (s.setParity).imgh = s.imgh := rfl

@[simp] theorem State.setParity_stride (s : State) :
    (s.setParity).stride = s.stride := rfl

@[simp] theorem State.setParity_pxi (s : State) :
    (s.setParity).pxi = s.pxi := rfl

@[simp] theorem State.setParity_pyi (s : State) :
    (s.setParity).pyi = s.pyi := rfl

@[simp] theorem State.setParity_pidx (s : State) :
    (s.setParity).pidx = s.pidx := rfl

@[simp] theorem State.setParity_srcx (s : State) :
    (s.setParity).srcx = s.srcx := rfl

@[simp] theorem State.setParity_srcy (s : State) :
    (s.setParity).srcy = s.srcy := rfl

@[simp] theorem State.setParity_dstx (s : State) :
    (s.setParity).dstx = s.dstx := rfl

@[simp] theorem State.setParity_dsty (s : State) :
    (s.setParity).dsty = s.dsty := rfl

@[simp] theorem State.setParity_h (s : State) :
    (s.setParity).h = s.h := rfl

@[simp] theorem State.setParity_g (s : State) :
    (s.setParity).g = s.g := rfl

@[simp] theorem State.setParity_par (s : State) :
    (s.setParity).par = setCells s.par 0 s.parityBytes := rfl

@[simp] theorem State.setParity_rxp (s : State) :
    (s.setParity).rxp = s.rxp := rfl

@[simp] theorem State.setParity_sb (s : State) :
    (s.setParity).sb = s.sb := rfl

@[simp] theorem State.setParity_cf (s : State) :
    (s.setParity).cf = s.cf := rfl

@[simp] theorem State.setParity_bv (s : State) :
    (s.setParity).bv = s.bv := rfl

@[simp] theorem State.setParity_rl (s : State) :
    (s.setParity).rl = s.rl := rfl

@[simp] theorem State.setParity_resetCount (s : State) :
    (s.setParity).resetCount = s.resetCount := rfl

@[simp] theorem State.setParity_rst (s : State) :
    (s.setParity).rst = s.rst := rfl

@[simp] theorem State.setParity_pending (s : State) :
    (s.setParity).pending = s.pending := rfl

@[simp] theorem State.setParity_resp (s : State) :
    (s.setParity).resp = s.resp := rfl

/-! ### The result point (43_homography.md R172) -/

@[simp] theorem State.setPoint_cfg (s : State) (q : Option RawPoint) :
    (s.setPoint q).cfg = s.cfg := by cases q <;> rfl

@[simp] theorem State.setPoint_lastErr (s : State) (q : Option RawPoint) :
    (s.setPoint q).lastErr = s.lastErr := by cases q <;> rfl

@[simp] theorem State.setPoint_pmatch (s : State) (q : Option RawPoint) :
    (s.setPoint q).pmatch = s.pmatch := by cases q <;> rfl

@[simp] theorem State.setPoint_none_pinv (s : State) :
    (s.setPoint none).pinv = true := rfl

@[simp] theorem State.setPoint_some_pinv (s : State) (p : RawPoint) :
    (s.setPoint (some p)).pinv = false := rfl

@[simp] theorem State.setPoint_oob (s : State) (q : Option RawPoint) :
    (s.setPoint q).oob = s.oob := by cases q <;> rfl

@[simp] theorem State.setPoint_estat (s : State) (q : Option RawPoint) :
    (s.setPoint q).estat = s.estat := by cases q <;> rfl

@[simp] theorem State.setPoint_ien (s : State) (q : Option RawPoint) :
    (s.setPoint q).ien = s.ien := by cases q <;> rfl

@[simp] theorem State.setPoint_ecmd (s : State) (q : Option RawPoint) :
    (s.setPoint q).ecmd = s.ecmd := by cases q <;> rfl

@[simp] theorem State.setPoint_hvalid (s : State) (q : Option RawPoint) :
    (s.setPoint q).hvalid = s.hvalid := by cases q <;> rfl

@[simp] theorem State.setPoint_bnd (s : State) (q : Option RawPoint) :
    (s.setPoint q).bnd = s.bnd := by cases q <;> rfl

@[simp] theorem State.setPoint_gfa (s : State) (q : Option RawPoint) :
    (s.setPoint q).gfa = s.gfa := by cases q <;> rfl

@[simp] theorem State.setPoint_gfb (s : State) (q : Option RawPoint) :
    (s.setPoint q).gfb = s.gfb := by cases q <;> rfl

@[simp] theorem State.setPoint_gfr (s : State) (q : Option RawPoint) :
    (s.setPoint q).gfr = s.gfr := by cases q <;> rfl

@[simp] theorem State.setPoint_slen (s : State) (q : Option RawPoint) :
    (s.setPoint q).slen = s.slen := by cases q <;> rfl

@[simp] theorem State.setPoint_prows (s : State) (q : Option RawPoint) :
    (s.setPoint q).prows = s.prows := by cases q <;> rfl

@[simp] theorem State.setPoint_pbits (s : State) (q : Option RawPoint) :
    (s.setPoint q).pbits = s.pbits := by cases q <;> rfl

@[simp] theorem State.setPoint_rlcnt (s : State) (q : Option RawPoint) :
    (s.setPoint q).rlcnt = s.rlcnt := by cases q <;> rfl

@[simp] theorem State.setPoint_ptx (s : State) (q : Option RawPoint) :
    (s.setPoint q).ptx = s.ptx := by cases q <;> rfl

@[simp] theorem State.setPoint_pty (s : State) (q : Option RawPoint) :
    (s.setPoint q).pty = s.pty := by cases q <;> rfl

@[simp] theorem State.setPoint_none_rx (s : State) :
    (s.setPoint none).rx = sentinel := rfl

@[simp] theorem State.setPoint_some_rx (s : State) (p : RawPoint) :
    (s.setPoint (some p)).rx = BitVec.ofInt 32 p.x := rfl

@[simp] theorem State.setPoint_none_ry (s : State) :
    (s.setPoint none).ry = sentinel := rfl

@[simp] theorem State.setPoint_some_ry (s : State) (p : RawPoint) :
    (s.setPoint (some p)).ry = BitVec.ofInt 32 p.y := rfl

@[simp] theorem State.setPoint_sclk (s : State) (q : Option RawPoint) :
    (s.setPoint q).sclk = s.sclk := by cases q <;> rfl

@[simp] theorem State.setPoint_sofx (s : State) (q : Option RawPoint) :
    (s.setPoint q).sofx = s.sofx := by cases q <;> rfl

@[simp] theorem State.setPoint_sofy (s : State) (q : Option RawPoint) :
    (s.setPoint q).sofy = s.sofy := by cases q <;> rfl

@[simp] theorem State.setPoint_imgw (s : State) (q : Option RawPoint) :
    (s.setPoint q).imgw = s.imgw := by cases q <;> rfl

@[simp] theorem State.setPoint_imgh (s : State) (q : Option RawPoint) :
    (s.setPoint q).imgh = s.imgh := by cases q <;> rfl

@[simp] theorem State.setPoint_stride (s : State) (q : Option RawPoint) :
    (s.setPoint q).stride = s.stride := by cases q <;> rfl

@[simp] theorem State.setPoint_pxi (s : State) (q : Option RawPoint) :
    (s.setPoint q).pxi = s.pxi := by cases q <;> rfl

@[simp] theorem State.setPoint_pyi (s : State) (q : Option RawPoint) :
    (s.setPoint q).pyi = s.pyi := by cases q <;> rfl

@[simp] theorem State.setPoint_pidx (s : State) (q : Option RawPoint) :
    (s.setPoint q).pidx = s.pidx := by cases q <;> rfl

@[simp] theorem State.setPoint_srcx (s : State) (q : Option RawPoint) :
    (s.setPoint q).srcx = s.srcx := by cases q <;> rfl

@[simp] theorem State.setPoint_srcy (s : State) (q : Option RawPoint) :
    (s.setPoint q).srcy = s.srcy := by cases q <;> rfl

@[simp] theorem State.setPoint_dstx (s : State) (q : Option RawPoint) :
    (s.setPoint q).dstx = s.dstx := by cases q <;> rfl

@[simp] theorem State.setPoint_dsty (s : State) (q : Option RawPoint) :
    (s.setPoint q).dsty = s.dsty := by cases q <;> rfl

@[simp] theorem State.setPoint_h (s : State) (q : Option RawPoint) :
    (s.setPoint q).h = s.h := by cases q <;> rfl

@[simp] theorem State.setPoint_g (s : State) (q : Option RawPoint) :
    (s.setPoint q).g = s.g := by cases q <;> rfl

@[simp] theorem State.setPoint_par (s : State) (q : Option RawPoint) :
    (s.setPoint q).par = s.par := by cases q <;> rfl

@[simp] theorem State.setPoint_rxp (s : State) (q : Option RawPoint) :
    (s.setPoint q).rxp = s.rxp := by cases q <;> rfl

@[simp] theorem State.setPoint_sb (s : State) (q : Option RawPoint) :
    (s.setPoint q).sb = s.sb := by cases q <;> rfl

@[simp] theorem State.setPoint_cf (s : State) (q : Option RawPoint) :
    (s.setPoint q).cf = s.cf := by cases q <;> rfl

@[simp] theorem State.setPoint_bv (s : State) (q : Option RawPoint) :
    (s.setPoint q).bv = s.bv := by cases q <;> rfl

@[simp] theorem State.setPoint_rl (s : State) (q : Option RawPoint) :
    (s.setPoint q).rl = s.rl := by cases q <;> rfl

@[simp] theorem State.setPoint_resetCount (s : State) (q : Option RawPoint) :
    (s.setPoint q).resetCount = s.resetCount := by cases q <;> rfl

@[simp] theorem State.setPoint_rst (s : State) (q : Option RawPoint) :
    (s.setPoint q).rst = s.rst := by cases q <;> rfl

@[simp] theorem State.setPoint_pending (s : State) (q : Option RawPoint) :
    (s.setPoint q).pending = s.pending := by cases q <;> rfl

@[simp] theorem State.setPoint_resp (s : State) (q : Option RawPoint) :
    (s.setPoint q).resp = s.resp := by cases q <;> rfl

end Sys2Proof.Machine
end

