-- ==== Sys2Proof/Laws/Ops.lean ====
section
/-! SUPPORT. What each shared operation can do, said once, so that later proofs cite these lemmas and
do not unfold the operations. -/

namespace Sys2Proof.Machine

/-! ### The parameters -/

/-- What a legal set of parameters satisfies (00_scope.md R5). -/
theorem LegalParams.bounds (c : LegalParams) :
    1 ≤ c.sbMax ∧ c.sbMax ≤ 256 ∧ 1 ≤ c.kMax ∧ c.kMax ≤ 8 ∧ 8 ≤ c.bvMax ∧ c.bvMax ≤ 4096 ∧
      c.bvMax % 8 = 0 := by
  have h := c.legal
  simp only [Params.wf, Bool.and_eq_true, decide_eq_true_eq] at h
  omega

/-- `BASE` is a multiple of 4 (00_scope.md R5). -/
theorem LegalParams.base_aligned (c : LegalParams) : c.base % 4 = 0 := by
  have h := c.legal
  simp only [Params.wf, Bool.and_eq_true, decide_eq_true_eq] at h
  exact h.2

/-- The field polynomial of a legal set makes 0x02 a generator (40_gf256.md R121). -/
theorem LegalParams.generates (c : LegalParams) : isGenerator c.gfPoly = true := by
  have h := c.legal
  simp only [Params.wf, Bool.and_eq_true] at h
  exact h.1.2

/-! ### The buffers, read through their free values -/

theorem State.sbAt_set (s : State) (a b : Nat) (v : Byte) :
    State.sbAt { s with sb := Memory.set s.sb a v } b = if b = a then v else s.sbAt b := by
  simp only [State.sbAt, Memory.get?_set]
  split <;> rfl

theorem State.bvAt_set (s : State) (a b : Nat) (v : Bit) :
    State.bvAt { s with bv := Memory.set s.bv a v } b = if b = a then v else s.bvAt b := by
  simp only [State.bvAt, Memory.get?_set]
  split <;> rfl

theorem State.sbAt_setFrom (s : State) (a : Nat) (vs : List Byte) (b : Nat) :
    State.sbAt { s with sb := Memory.setFrom s.sb a vs } b =
      if a ≤ b ∧ b < a + vs.length then vs[b - a]?.getD 0 else s.sbAt b := by
  simp only [State.sbAt, Memory.get?_setFrom]
  split
  · next h =>
    rw [List.getElem?_eq_getElem (by omega)]
    rfl
  · rfl

theorem State.bvAt_setFrom (s : State) (a : Nat) (vs : List Bit) (b : Nat) :
    State.bvAt { s with bv := Memory.setFrom s.bv a vs } b =
      if a ≤ b ∧ b < a + vs.length then vs[b - a]?.getD 0 else s.bvAt b := by
  simp only [State.bvAt, Memory.get?_setFrom]
  split
  · next h =>
    rw [List.getElem?_eq_getElem (by omega)]
    rfl
  · rfl

theorem State.rlAt_setFrom (s : State) (a : Nat) (vs : List Word) (b : Nat) :
    State.rlAt { s with rl := Memory.setFrom s.rl a vs } b =
      if a ≤ b ∧ b < a + vs.length then vs[b - a]?.getD 0 else s.rlAt b := by
  simp only [State.rlAt, Memory.get?_setFrom]
  split
  · next h =>
    rw [List.getElem?_eq_getElem (by omega)]
    rfl
  · rfl

/-- Distinct coefficients have distinct places (the columns are below 256 by R5). -/
theorem cfIndex_inj {k i k' i' : Nat} (hi : i < 256) (hi' : i' < 256) :
    cfIndex k i = cfIndex k' i' ↔ k = k' ∧ i = i' := by
  simp only [cfIndex]
  omega

/-! ### Points -/

/-- The input point of format S (30_encoding.md R107): valid but for `s = 1` with `PINV` = 1. -/
theorem State.inputPoint_eq_none (s : State) (p : PointSel) :
    s.inputPoint p = none ↔ p = .r ∧ s.pinv = true := by
  cases p <;> simp [State.inputPoint]

/-- A result point is kept exactly when both coordinates are in the range of R182. -/
theorem pointInRange_eq_some (p q : RawPoint) :
    pointInRange p = some q ↔
      q = p ∧ -2 ^ 31 < p.x ∧ p.x < 2 ^ 31 ∧ -2 ^ 31 < p.y ∧ p.y < 2 ^ 31 := by
  have hb : (representable p.x && representable p.y) = true ↔
      -2 ^ 31 < p.x ∧ p.x < 2 ^ 31 ∧ -2 ^ 31 < p.y ∧ p.y < 2 ^ 31 := by
    simp only [representable, Bool.and_eq_true, decide_eq_true_eq, and_assoc]
  rw [← hb]
  unfold pointInRange
  by_cases h : (representable p.x && representable p.y) = true
  · rw [if_pos h]
    simp only [Option.some.injEq, h, and_true]
    exact eq_comm
  · rw [if_neg h]
    simp [h]

/-- A coordinate in the range of R182 is never stored as the sentinel (R172). -/
theorem ofInt_ne_sentinel {r : Int} (hl : -2 ^ 31 < r) (hu : r < 2 ^ 31) :
    BitVec.ofInt 32 r ≠ sentinel := by
  intro h
  have h' := congrArg BitVec.toInt h
  rw [BitVec.toInt_ofInt_eq_self (by decide) (by omega) (by omega)] at h'
  have : sentinel.toInt = -2 ^ 31 := by decide
  omega

/-- The result point keeps the invariant of R37 when its coordinates are in range. -/
theorem State.setPoint_pointOk (s : State) (q : Option RawPoint)
    (h : ∀ p, q = some p → pointInRange p = some p) : (s.setPoint q).PointOk := by
  cases q with
  | none => exact ⟨fun _ => ⟨rfl, rfl⟩, (fun h => nomatch h)⟩
  | some p =>
    have hp := (pointInRange_eq_some p p).mp (h p rfl)
    exact ⟨(fun h => nomatch h),
      fun _ => ⟨ofInt_ne_sentinel hp.2.1 hp.2.2.1, ofInt_ne_sentinel hp.2.2.2.1 hp.2.2.2.2⟩⟩

/-! ### The host's transactions -/

/-- The registers that the map of R88 reaches are those it lists. -/
theorem regAt_listed {c : LegalParams} {off : Nat} {r : Reg}
    (h : regAt c.toParams off = some r) : r.listed c.toParams := by
  have hb := LegalParams.bounds c
  have cell : ∀ {b : Bool} {q : Reg}, (b = true → q.listed c.toParams) →
      cellIf b q = some r → r.listed c.toParams := by
    intro b q hq hc
    cases b with
    | true => exact Option.some.inj hc ▸ hq rfl
    | false => cases hc
  have pair : ∀ {d : Nat} {lo hi : Nat → Reg}, (lo (d / 8)).listed c.toParams →
      (hi (d / 8)).listed c.toParams → pairAt d lo hi = some r → r.listed c.toParams := by
    intro d lo hi hlo hhi hp
    have hp := Option.some.inj hp
    by_cases hd : d % 8 = 0
    · rw [if_pos hd] at hp; exact hp ▸ hlo
    · rw [if_neg hd] at hp; exact hp ▸ hhi
  have low : ∀ n : Nat, lowRegs[n]? = some r → r.listed c.toParams := by
    intro n hn
    have : ∀ q ∈ lowRegs, q.listed c.toParams := by
      intro q hq
      simp only [lowRegs, List.mem_cons, List.not_mem_nil, or_false] at hq
      rcases hq with rfl | rfl | rfl | rfl | rfl | rfl | rfl | rfl | rfl | rfl | rfl | rfl | rfl |
        rfl | rfl | rfl | rfl | rfl | rfl | rfl | rfl | rfl | rfl | rfl | rfl | rfl | rfl | rfl |
        rfl | rfl <;> exact True.intro
    exact this r (List.mem_of_getElem? hn)
  rw [regAt] at h
  by_cases h0 : off < 0x78
  · rw [if_pos h0] at h; exact low _ h
  rw [if_neg h0] at h
  by_cases h1 : off < 0x80
  · rw [if_pos h1] at h; cases h
  rw [if_neg h1] at h
  by_cases h2 : off < 0xA0
  · rw [if_pos h2] at h; exact pair (show _ < 4 by omega) (show _ < 4 by omega) h
  rw [if_neg h2] at h
  by_cases h3 : off < 0xC0
  · rw [if_pos h3] at h; exact pair (show _ < 4 by omega) (show _ < 4 by omega) h
  rw [if_neg h3] at h
  by_cases h4 : off < 0x108
  · rw [if_pos h4] at h; exact pair (show _ < 9 by omega) (show _ < 9 by omega) h
  rw [if_neg h4] at h
  by_cases h5 : off < 0x140
  · rw [if_pos h5] at h; cases h
  rw [if_neg h5] at h
  by_cases h6 : off < 0x188
  · rw [if_pos h6] at h; exact pair (show _ < 9 by omega) (show _ < 9 by omega) h
  rw [if_neg h6] at h
  by_cases h7 : off < 0x1C0
  · rw [if_pos h7] at h; cases h
  rw [if_neg h7] at h
  by_cases h8 : off < 0x1E0
  · rw [if_pos h8] at h; exact cell (fun e => by simpa [Reg.listed] using e) h
  rw [if_neg h8] at h
  by_cases h9 : off < 0x200
  · rw [if_pos h9] at h; exact cell (fun e => by simpa [Reg.listed] using e) h
  rw [if_neg h9] at h
  by_cases h10 : off < 0x400
  · rw [if_pos h10] at h; cases h
  rw [if_neg h10] at h
  by_cases h11 : off < 0x800
  · rw [if_pos h11] at h; exact cell (fun e => by simpa [Reg.listed] using e) h
  rw [if_neg h11] at h
  by_cases h12 : off < 0x2000
  · rw [if_pos h12] at h; cases h
  rw [if_neg h12] at h
  by_cases h13 : off < 0x4000
  · rw [if_pos h13] at h
    exact cell (fun e => by simpa [Reg.listed] using e) h
  rw [if_neg h13] at h
  by_cases h14 : off < 0x8000
  · rw [if_pos h14] at h; exact cell (fun e => by simpa [Reg.listed] using e) h
  rw [if_neg h14] at h
  by_cases h15 : off < 0xC000
  · rw [if_pos h15] at h; exact cell (fun e => by simpa [Reg.listed] using e) h
  · rw [if_neg h15] at h; cases h

/-- A transaction has an effect exactly when the reset input is released, the access is an aligned
word and the map lists the offset (R71 to R73, R250). -/
theorem State.target_eq_next {s : State} {off : Nat} {width : Width} {k : Reg → Result}
    {t : State} :
    s.target off width k = .next t ↔
      s.rst = false ∧ width = .four ∧ off % 4 = 0 ∧
        ∃ r, regAt s.cfg.toParams off = some r ∧ k r = .next t := by
  unfold State.target
  cases hr : s.rst with
  | true => simp
  | false =>
    by_cases hw : width = .four
    · by_cases ho : off % 4 = 0
      · simp only [hw, ho]
        cases regAt s.cfg.toParams off <;> simp
      · simp [ho]
    · simp [hw]

/-- The window in terms of the address: the offset is counted from `BASE` and below 65 536 (R70). -/
theorem windowOffset_eq_some {p : Params} {addr off : Nat} :
    windowOffset p addr = some off ↔ addr = p.base + off ∧ off < windowSize := by
  unfold windowOffset
  split <;> simp <;> omega

/-- `BASE + off` stands at offset `off` (R71). -/
theorem windowOffset_base_add {p : Params} {off : Nat} (h : off < windowSize) :
    windowOffset p (p.base + off) = some off := windowOffset_eq_some.mpr ⟨rfl, h⟩

theorem windowOffset_eq_none {p : Params} {addr : Nat} :
    windowOffset p addr = none ↔ addr < p.base ∨ p.base + windowSize ≤ addr := by
  unfold windowOffset
  split <;> simp <;> omega

/-- A transaction at `BASE + off` has the effect of its offset (R71). -/
theorem State.transaction_base_add (s : State) {off : Nat} (h : off < windowSize) (width : Width)
    (k : Reg → Result) : s.transaction (s.cfg.base + off) width k = s.target off width k := by
  simp only [State.transaction, windowOffset_base_add h]

/-- A transaction outside the window changes nothing in the block (R70). -/
theorem State.transaction_outside (s : State) {addr : Nat}
    (h : addr < s.cfg.base ∨ s.cfg.base + windowSize ≤ addr) (width : Width) (k : Reg → Result) :
    s.transaction addr width k = .next { s with resp := .none } := by
  simp only [State.transaction, windowOffset_eq_none.mpr h]

/-- A transaction is another target's and changes nothing, or has the effect of its offset (R70). -/
theorem State.transaction_eq_next {s : State} {addr : Nat} {width : Width} {k : Reg → Result}
    {t : State} :
    s.transaction addr width k = .next t ↔
      (windowOffset s.cfg.toParams addr = none ∧ t = { s with resp := .none }) ∨
        ∃ off, windowOffset s.cfg.toParams addr = some off ∧ s.target off width k = .next t := by
  unfold State.transaction
  cases windowOffset s.cfg.toParams addr with
  | none =>
    simp only [Host.Outcome.next.injEq, true_and, reduceCtorEq, false_and, exists_false, or_false]
    exact eq_comm
  | some off => simp

theorem respond_eq_next {r : Response} {o : Result} {t : State} :
    respond r o = .next t ↔ ∃ u, o = .next u ∧ t = { u with resp := r } := by
  cases o with
  | next u =>
    simp only [respond, Host.Outcome.next.injEq, exists_eq_left']
    exact eq_comm
  | fault e => simp [respond]
  | refused e => simp [respond]

/-- What running a command word does: the meaning of the command it decodes to, or ILLEGAL_CMD and
nothing else (R100, R106). -/
theorem State.command_eq_next {run : Instr → State → Result} {s t : State} {w : Word} :
    s.command run w = .next t ↔
      (∃ i, decode w = .ok i ∧ run i s = .next t) ∨
        ((∃ e, decode w = .error e) ∧ t = s.raise .illegalCmd w) := by
  unfold State.command
  cases decode w with
  | ok i => simp
  | error e =>
    simp only [Host.Outcome.next.injEq, reduceCtorEq, false_and, exists_false, false_or,
      Except.error.injEq, exists_eq', true_and]
    exact eq_comm

/-- What serving one event can do. -/
theorem serve_cases {run : Instr → State → Result} {s t : State} {e : HostEvent}
    (h : serve run s e = .next t) :
    (e = .reset true ∧ t = { s.hardReset with rst := true, resp := .none }) ∨
    (e = .reset false ∧ t = { s with rst := false, resp := .none }) ∨
    (∃ addr width, (e = .read addr width ∨ ∃ v, e = .write addr width v) ∧
      windowOffset s.cfg.toParams addr = none ∧ t = { s with resp := .none }) ∨
    (s.rst = false ∧ ∃ off r, e = .read (s.cfg.base + off) .four ∧ off % 4 = 0 ∧
      regAt s.cfg.toParams off = some r ∧ t = { s with resp := .data (s.readReg r) }) ∨
    (s.rst = false ∧ ∃ off v u, e = .write (s.cfg.base + off) .four v ∧ off % 4 = 0 ∧
      t = { u with resp := .written } ∧
      ((regAt s.cfg.toParams off = some .cmd ∧ s.command run v = .next u) ∨
       ∃ r, r ≠ .cmd ∧ regAt s.cfg.toParams off = some r ∧ u = s.writeReg v r)) := by
  cases e with
  | reset l =>
    cases l with
    | true => exact .inl ⟨rfl, by simpa [serve] using h.symm⟩
    | false => exact .inr (.inl ⟨rfl, by simpa [serve] using h.symm⟩)
  | read addr width =>
    obtain ⟨hn, ht⟩ | ⟨off, hw, hk⟩ := State.transaction_eq_next.mp h
    · exact .inr (.inr (.inl ⟨addr, width, .inl rfl, hn, ht⟩))
    obtain ⟨rfl, -⟩ := windowOffset_eq_some.mp hw
    obtain ⟨hr, rfl, ho, r, hreg, ht⟩ := State.target_eq_next.mp hk
    exact .inr (.inr (.inr (.inl ⟨hr, off, r, rfl, ho, hreg, by simpa using ht.symm⟩)))
  | write addr width v =>
    obtain ⟨hn, ht⟩ | ⟨off, hw, hk⟩ := State.transaction_eq_next.mp h
    · exact .inr (.inr (.inl ⟨addr, width, .inr ⟨v, rfl⟩, hn, ht⟩))
    obtain ⟨rfl, -⟩ := windowOffset_eq_some.mp hw
    obtain ⟨hr, rfl, ho, r, hreg, ht⟩ := State.target_eq_next.mp hk
    obtain ⟨u, hu, rfl⟩ := respond_eq_next.mp ht
    refine .inr (.inr (.inr (.inr ⟨hr, off, v, u, rfl, ho, rfl, ?_⟩)))
    split at hu
    · next hc => exact .inl ⟨hc ▸ hreg, hu⟩
    · next hc => exact .inr ⟨r, hc, hreg, by simpa using hu.symm⟩

end Sys2Proof.Machine
end

