-- ==== Sys2Proof/Laws/PerInstr.lean ====
section
/-! SUPPORT. Statements about every command, one lemma per constructor. -/

namespace Sys2Proof.Laws

/-- Bits 31:24 of a command word are the command's opcode (30_encoding.md R101). -/
def OpcodeField.Statement (i : Instr) : Prop := opcodeOf (encode i) = opcode i

/-- The high byte of a command word. -/
theorem opcodeOf_append (op : Byte) (b : BitVec 24) : opcodeOf (op ++ b) = op :=
  BitVec.extractLsb'_append_eq_left

/-- The low 24 bits of a command word. -/
theorem operand_append (op : Byte) (b : BitVec 24) : (op ++ b : Word).extractLsb' 0 24 = b :=
  BitVec.extractLsb'_append_eq_right

theorem OpcodeField.nop : OpcodeField.Statement (.nop) :=
  opcodeOf_append _ _

theorem OpcodeField.gfmul : OpcodeField.Statement (.gfmul) :=
  opcodeOf_append _ _

theorem OpcodeField.gfdiv : OpcodeField.Statement (.gfdiv) :=
  opcodeOf_append _ _

theorem OpcodeField.gfexp : OpcodeField.Statement (.gfexp) :=
  opcodeOf_append _ _

theorem OpcodeField.gflog : OpcodeField.Statement (.gflog) :=
  opcodeOf_append _ _

theorem OpcodeField.pack (n : Nat) : OpcodeField.Statement (.pack n) :=
  opcodeOf_append _ _

theorem OpcodeField.unpack (n : Nat) : OpcodeField.Statement (.unpack n) :=
  opcodeOf_append _ _

theorem OpcodeField.rle (n : Nat) : OpcodeField.Statement (.rle n) :=
  opcodeOf_append _ _

theorem OpcodeField.pargen : OpcodeField.Statement (.pargen) :=
  opcodeOf_append _ _

theorem OpcodeField.parchk : OpcodeField.Statement (.parchk) :=
  opcodeOf_append _ _

theorem OpcodeField.hsolve : OpcodeField.Statement (.hsolve) :=
  opcodeOf_append _ _

theorem OpcodeField.hmap (p : PointSel) : OpcodeField.Statement (.hmap p) :=
  opcodeOf_append _ _

theorem OpcodeField.himap (p : PointSel) : OpcodeField.Statement (.himap p) :=
  opcodeOf_append _ _

theorem OpcodeField.scale (p : PointSel) : OpcodeField.Statement (.scale p) :=
  opcodeOf_append _ _

theorem OpcodeField.nint (p : PointSel) : OpcodeField.Statement (.nint p) :=
  opcodeOf_append _ _

theorem OpcodeField.srst : OpcodeField.Statement (.srst) :=
  opcodeOf_append _ _

end Sys2Proof.Laws
end

