-- ==== Sys2Proof/Tests/Slice0.lean ====
section
/-! SUPPORT. Tests of one step or one operation each, with expected values from 95_test_vectors.md and
the examples of the rules, and for each statement with hypotheses a witness that meets them. -/

namespace Sys2Proof.Tests

open Sys2Proof Sys2Proof.Machine Sys2Proof.Claims

/-! ### Helpers -/

/-- The outcome is a next state of which `f` holds. -/
def nextIs (o : Result) (f : State → Bool) : Bool :=
  match o with
  | .next t => f t
  | _ => false

theorem exists_of_nextIs {o : Result} {f : State → Bool} (h : nextIs o f = true) :
    ∃ t, o = .next t ∧ f t = true := by
  cases o with
  | next t => exact ⟨t, rfl, h⟩
  | fault e => cases h
  | refused e => cases h

/-- `f` holds of the next state of `i` from `s`. -/
def after (i : Instr) (s : State) (f : State → Bool) : Bool := nextIs (exec i s) f

/-- The bits of V-BV-1 from `BV[0]` on. -/
def withBits (s : State) : State :=
  { s with bv := Memory.setFrom [] 0 [1, 1, 1, 0, 0, 1, 0, 1, 1, 1, 1, 1, 0, 0, 0, 0, 1, 0, 1, 1] }

/-- The setup of V-PAR-2. -/
def parityState : State :=
  { State.reset with
    slen := 4, prows := 2, pbits := 16
    sb := Memory.setFrom [] 0 [0x12, 0x34, 0x56, 0x78]
    cf := Memory.setFrom (Memory.setFrom [] 256 [0x01, 0x02, 0x04, 0x08]) 0 [0x01, 0x01, 0x01, 0x01]
    rxp := #v[0x08, 0xD8, 0, 0, 0, 0, 0, 0] }

/-- The setup of V-PAR-3. -/
def mismatchState : State := { parityState with rxp := #v[0x08, 0xD9, 0, 0, 0, 0, 0, 0] }

/-- The points of V-HG-3. -/
def solverState : State :=
  { State.reset with
    srcx := #v[0, 32768, 65536, 32768], srcy := #v[32768, 0, 32768, 65536]
    dstx := #v[6553600, 20971520, 36700160, 19660800]
    dsty := #v[19660800, 5242880, 17039360, 34078720] }

/-- The matrices of V-HG-3. -/
def mapperState : State :=
  { State.reset with
    hvalid := true
    h := #v[0x0000015B24924925, 0xFFFFFFC292492492, 0x0000007B92492492, 0xFFFFFFB5B6DB6DB7,
      0x0000014E49249249, 0x0000006F6DB6DB6E, 0xFFFFFFFFDB6DB6DB, 0xFFFFFFFFDB6DB6DB,
      0x0000000100000000]
    g := #v[0x0000000000CDDF4C, 0x000000000019BBE9, 0xFFFFFFFF916C90C1, 0x0000000000224FE2,
      0x0000000000D67344, 0xFFFFFFFF9218202B, 0x0000000000224FE2, 0x0000000000224FE2,
      0x0000000100000000] }

/-- A block with the smallest shard buffer, where `8·SB_MAX` and not `BV_MAX` limits PACK. -/
def smallParams : LegalParams :=
  { sbMax := 1, kMax := 1, bvMax := 16, gfPoly := 0x11D, base := 0x40000000, idValue := 0,
    legal := by decide +kernel }

def smallState : State := { State.reset with cfg := smallParams }

/-! ### Well-formedness: each check refuses a term that breaks it -/

theorem test_wf_pack_count : (Instr.pack 65536).wf = false := by decide
theorem test_wf_unpack_count : (Instr.unpack 65536).wf = false := by decide
theorem test_wf_rle_count : (Instr.rle 65536).wf = false := by decide
theorem test_wf_default_params : Params.default.wf = true := by decide +kernel
theorem test_wf_sb_max_zero : { Params.default with sbMax := 0 }.wf = false := by decide +kernel
theorem test_wf_sb_max_257 : { Params.default with sbMax := 257 }.wf = false := by decide +kernel
theorem test_wf_k_max_zero : { Params.default with kMax := 0 }.wf = false := by decide +kernel
theorem test_wf_k_max_nine : { Params.default with kMax := 9 }.wf = false := by decide +kernel
theorem test_wf_bv_max_zero : { Params.default with bvMax := 0 }.wf = false := by decide +kernel
theorem test_wf_bv_max_4104 : { Params.default with bvMax := 4104 }.wf = false := by decide +kernel
theorem test_wf_bv_max_12 : { Params.default with bvMax := 12 }.wf = false := by decide +kernel
theorem test_wf_base_unaligned : { Params.default with base := 0x1002 }.wf = false := by
  decide +kernel
theorem test_wf_poly_degree : { Params.default with gfPoly := 0x01D }.wf = false := by
  decide +kernel

/-- 0x11B is irreducible, but 0x02 has order 51 there. -/
theorem test_wf_poly_generator : { Params.default with gfPoly := 0x11B }.wf = false := by
  decide +kernel

/-! ### Decoding: one written-out word for each command (30_encoding.md R105) -/

theorem test_decode_nop : decode 0x00000000 = .ok .nop := rfl
theorem test_decode_gfmul : decode 0x01000000 = .ok .gfmul := rfl
theorem test_decode_gfdiv : decode 0x02000000 = .ok .gfdiv := rfl
theorem test_decode_gfexp : decode 0x03000000 = .ok .gfexp := rfl
theorem test_decode_gflog : decode 0x04000000 = .ok .gflog := rfl
theorem test_decode_pack : decode 0x10000201 = .ok (.pack 513) := rfl
theorem test_decode_unpack : decode 0x1100000C = .ok (.unpack 12) := rfl
theorem test_decode_rle : decode 0x1200FFFF = .ok (.rle 65535) := rfl
theorem test_decode_pargen : decode 0x20000000 = .ok .pargen := rfl
theorem test_decode_parchk : decode 0x21000000 = .ok .parchk := rfl
theorem test_decode_hsolve : decode 0x30000000 = .ok .hsolve := rfl
theorem test_decode_hmap : decode 0x31000001 = .ok (.hmap .r) := rfl
theorem test_decode_himap : decode 0x32000000 = .ok (.himap .pt) := rfl
theorem test_decode_scale : decode 0x40000001 = .ok (.scale .r) := rfl
theorem test_decode_nint : decode 0x41000000 = .ok (.nint .pt) := rfl
theorem test_decode_srst : decode 0x7F000000 = .ok .srst := rfl
theorem test_decode_unassigned : decode 0x05000000 = .error .unassignedOpcode := rfl
theorem test_decode_all_ones : decode 0xFFFFFFFF = .error .unassignedOpcode := rfl
theorem test_decode_reserved_z : decode 0x01000001 = .error .reservedNotZero := rfl
theorem test_decode_reserved_n : decode 0x10010000 = .error .reservedNotZero := rfl
theorem test_decode_reserved_s : decode 0x40000002 = .error .reservedNotZero := rfl

/-! ### Commands -/

/-- V-SY-1. -/
theorem test_nop_clears_lasterr :
    after .nop { State.reset with lastErr := 5, estat := 0x10, ecmd := 7 }
      (fun t => t.readReg .status == 0 && t.readReg .estat == 0x20 && t.ecmd == 7) = true := by
  decide

/-- V-GF-5. -/
theorem test_gfmul : after .gfmul { State.reset with gfa := 0x53, gfb := 0xCA }
    (fun t => t.gfr == 0x8F) = true := by decide

/-- V-GF-4. -/
theorem test_gfmul_reduces : after .gfmul { State.reset with gfa := 0x02, gfb := 0x80 }
    (fun t => t.gfr == 0x1D) = true := by decide

/-- V-GF-14. -/
theorem test_gfdiv : after .gfdiv { State.reset with gfa := 0x53, gfb := 0xCA }
    (fun t => t.gfr == 0x6D && t.lastErr == 0) = true := by decide +kernel

/-- V-GF-20. -/
theorem test_gfdiv_zero : after .gfdiv { State.reset with gfr := 9 }
    (fun t => t.gfr == 9 && t.lastErr == 3 && t.readReg .estat == 8 && t.ecmd == 0x02000000) =
      true := by decide

/-- V-GF-26. -/
theorem test_gfexp : after .gfexp { State.reset with gfa := 25 } (fun t => t.gfr == 3) = true := by
  decide +kernel

/-- V-GF-28. -/
theorem test_gfexp_255 : after .gfexp { State.reset with gfa := 255 } (fun t => t.gfr == 1) =
    true := by decide +kernel

/-- V-GF-35. -/
theorem test_gflog : after .gflog { State.reset with gfa := 0x8E } (fun t => t.gfr == 254) =
    true := by decide +kernel

/-- V-GF-36. -/
theorem test_gflog_zero : after .gflog { State.reset with gfr := 9 }
    (fun t => t.gfr == 9 && t.lastErr == 4 && t.ecmd == 0x04000000) = true := by decide

/-- V-BV-1. -/
theorem test_pack : after (.pack 20) (withBits State.reset)
    (fun t => t.sb == [(0, 0xE5), (1, 0xF0), (2, 0xB0)]) = true := by decide +kernel

/-- V-BV-11. -/
theorem test_pack_range : after (.pack 513) State.reset
    (fun t => t.sb == [] && t.lastErr == 2 && t.ecmd == 0x10000201) = true := by decide

/-- V-BV-9. -/
theorem test_unpack : after (.unpack 12) { State.reset with sb := [(0, 0xA5), (1, 0x3C)] }
    (fun t => t.bits 12 == [1, 0, 1, 0, 0, 1, 0, 1, 0, 0, 1, 1] && t.bv.length == 12) = true := by
  decide +kernel

/-- V-BV-2. -/
theorem test_rle : after (.rle 20) (withBits State.reset)
    (fun t => t.rlcnt == 9 && t.rlAt 0 == 0x80000003 && t.rlAt 1 == 0x00030002 &&
      t.rlAt 8 == 0x80120002 && t.rl.length == 9) = true := by decide +kernel

/-- V-BV-3. -/
theorem test_rle_empty : after (.rle 0) { State.reset with rlcnt := 5 }
    (fun t => t.rlcnt == 0 && t.rl == []) = true := by decide

/-- V-PAR-1. -/
theorem test_pargen : after .pargen parityState
    (fun t => t.par == #v[0x08, 0xD8, 0, 0, 0, 0, 0, 0] && !t.pmatch) = true := by decide +kernel

/-- V-PAR-9. -/
theorem test_pargen_range : after .pargen { parityState with slen := 65 }
    (fun t => t.par == parityState.par && t.lastErr == 2) = true := by decide +kernel

/-- V-PAR-2. -/
theorem test_parchk_match : after .parchk parityState
    (fun t => t.pmatch && t.lastErr == 0 && t.parAt 1 == 0xD8) = true := by decide +kernel

/-- V-PAR-3. -/
theorem test_parchk_mismatch : after .parchk { mismatchState with pmatch := true }
    (fun t => !t.pmatch && t.lastErr == 5 && t.readReg .estat == 0x20 && t.ecmd == 0x21000000 &&
      t.parAt 0 == 0x08) = true := by decide +kernel

/-- V-HG-3. -/
theorem test_hsolve : after .hsolve solverState
    (fun t => t.h == mapperState.h && t.g == mapperState.g && t.hvalid) = true := by decide +kernel

/-- V-HG-5. -/
theorem test_hsolve_singular :
    after .hsolve { solverState with
      hvalid := true, srcx := #v[0, 65536, 0, 32768], srcy := #v[0, 0, 65536, 32768] }
      (fun t => !t.hvalid && t.lastErr == 6 && t.h == State.reset.h) = true := by decide +kernel

/-- V-HG-3b. -/
theorem test_hmap : after (.hmap .pt) { mapperState with ptx := 13107, pty := 52429 }
    (fun t => t.rx == 10999030 && t.ry == 27831050 && !t.pinv) = true := by decide +kernel

/-- V-HG-7. -/
theorem test_hmap_not_valid : after (.hmap .r) { State.reset with rx := 4 }
    (fun t => t.rx == 4 && t.lastErr == 8 && t.ecmd == 0x31000001) = true := by decide

/-- V-HG-3a. -/
theorem test_himap_border : after (.himap .pt) { mapperState with ptx := 19660800, pty := 34078720 }
    (fun t => t.rx == 32768 && t.ry == 65536 && !t.pinv) = true := by decide +kernel

/-- V-HG-3c. -/
theorem test_himap_outside : after (.himap .pt) mapperState
    (fun t => t.rx == 0x80000000 && t.pinv && t.lastErr == 0) = true := by decide +kernel

/-- V-SC-1. -/
theorem test_scale : after (.scale .pt)
    { State.reset with sclk := 29491, sofx := 32768, sofy := 32768, ptx := 56756, pty := 32768 }
    (fun t => t.rx == 58308 && t.ry == 47514 && !t.pinv) = true := by decide +kernel

/-- V-SC-6, from (`RX`, `RY`), which the command reads before it writes them. -/
theorem test_scale_ties_up : after (.scale .r)
    { State.reset with sclk := 32768, rx := 0xFFFFFFFF, ry := 0xFFFFFFFD }
    (fun t => t.rx == 0 && t.ry == 0xFFFFFFFF) = true := by decide +kernel

/-- V-NI-2, with the second set of image registers. -/
theorem test_nint : after (.nint .pt)
    { State.reset with imgw := 640, imgh := 480, stride := 1024, ptx := 32767, pty := 32768 }
    (fun t => t.pxi == 0 && t.pyi == 1 && t.pidx == 1024 && !t.oob) = true := by decide +kernel

/-- V-NI-3. -/
theorem test_nint_outside : after (.nint .pt)
    { State.reset with imgw := 640, imgh := 640, stride := 640, ptx := 0xFFFF8000, pty := 0xFFFF7FFF }
    (fun t => t.pxi == 0 && t.pyi == 0xFFFFFFFF && t.pidx == 0xFFFFFFFF && t.oob) = true := by
  decide +kernel

/-- V-SY-5. -/
theorem test_srst : after .srst
    { State.reset with
      lastErr := 5, pinv := true, hvalid := true, estat := 0x10, ien := 0x10, ecmd := 1
      sb := [(3, 7)] }
    (fun t => t.readReg .status == 0 && t.estat == 0 && t.ien == 0 && t.ecmd == 0 &&
      t.readReg .hctl == 2 && !t.irq && t.sb == [(3, 7)]) = true := by decide +kernel

/-! ### The host's registers -/

/-- V-SY-5, the state before: `STATUS` reads 0x00001A05. -/
theorem test_status_word :
    State.readReg { State.reset with
      lastErr := 5, pinv := true, hvalid := true, estat := 0x10, ien := 0x10 } .status =
        0x00001A05 := by decide

/-- V-SY-8. -/
theorem test_constant_registers :
    [Reg.id, .version, .cap0, .cap1, .hctl, .cmd].map State.reset.readReg =
      [0x52434142, 0x00010000, 0x00040040, 0x011D0200, 0x00000002, 0] := by decide

/-- V-SY-6. -/
theorem test_acknowledge :
    State.readReg (State.writeReg { State.reset with estat := 0x12 } 0x04 .estat) .estat = 0x20 := by
  decide

/-- The last cell of each buffer window, and the first offset past two of them (20_memory.md R88). -/
theorem test_regAt_ends :
    [0x107c, 0x104, 0x1CC, 0x1D0, 0x4FC, 0x500, 0x2CFC, 0x47FC, 0x87FC, 0x8800].map
      (regAt Params.default) =
      [none, some (.hhi 8), some (.par 3), none, some (.sb 63), none, some (.cf 3 63),
        some (.bv 511), some (.rl 511), none] := by decide

/-- 40_gf256.md R122: rows 0 and F of the table. -/
theorem test_exp_table :
    (List.range 16).map (gfExp 0x11D) =
      [0x01, 0x02, 0x04, 0x08, 0x10, 0x20, 0x40, 0x80, 0x1D, 0x3A, 0x74, 0xE8, 0xCD, 0x87, 0x13,
        0x26] ∧
    (List.range 15).map (fun c => gfExp 0x11D (240 + c)) =
      [0x2C, 0x58, 0xB0, 0x7D, 0xFA, 0xE9, 0xCF, 0x83, 0x1B, 0x36, 0x6C, 0xD8, 0xAD, 0x47, 0x8E] := by
  decide +kernel

/-- 40_gf256.md R123: row F of the table. -/
theorem test_log_table :
    (List.range 16).map (fun c => gfLog 0x11D (BitVec.ofNat 8 (240 + c))) =
      [0x4F, 0xAE, 0xD5, 0xE9, 0xE6, 0xE7, 0xAD, 0xE8, 0x74, 0xD6, 0xF4, 0xEA, 0xA8, 0x50, 0x58,
        0xAF] := by decide +kernel

/-- P1, line 1: the host's write of `IEN` through a step. -/
theorem test_step_write :
    nextIs (step { State.reset with pending := [.write 0x01C .four 0x20] })
      (fun t => t.ien == 0x10 && t.pending == [] && t.resp == .written) = true := by decide

/-- The offset past `PIDX`, which the map does not list. -/
theorem test_step_unmapped :
    step { State.reset with pending := [.read 0x078 .four] } = .fault .unmappedOffset := rfl

/-- `withFetchWord` issues exactly the command: GFEXP of the reset value (V-GF-21). -/
theorem test_withFetchWord :
    nextIs (step (State.reset.withFetchWord 32 0x03000000))
      (fun t => t.gfr == 1 && t.pending == [] && t.resp == .written) = true := by decide

/-- 20_memory.md R71: the same in a block whose `BASE` is not 0. -/
theorem test_withFetchWord_base :
    nextIs (step (smallState.withFetchWord 32 0x03000000))
      (fun t => t.gfr == 1 && t.pending == [] && t.resp == .written) = true := by decide

/-! ### Witnesses: each meets the hypotheses of the statement it names -/

theorem witness_DecodeOfEncodeIsTheCommand :
    (Instr.pack 65535).wf = true ∧ (Instr.rle 0).wf = true ∧ (Instr.nint .r).wf = true := by decide

theorem witness_EncodeOfDecodeIsTheWord :
    decode 0x1000FFFF = .ok (.pack 65535) ∧ decode 0x41000001 = .ok (.nint .r) := ⟨rfl, rfl⟩

/-- The opcode hypothesis of `FormatZ`, `FormatN` and `FormatS`, with words on both sides of the
test of the reserved field. -/
theorem witness_formats :
    (∀ op ∈ [0x00, 0x01, 0x02, 0x03, 0x04, 0x20, 0x21, 0x30, 0x7F],
      opcodeOf (op ++ 0#24) = op ∧ (op ++ 0#24 : Word).extractLsb' 0 24 = 0 ∧
        opcodeOf (op ++ 1#24) = op ∧ (op ++ 1#24 : Word).extractLsb' 0 24 ≠ 0) ∧
    (∀ op ∈ [0x10, 0x11, 0x12],
      opcodeOf (op ++ 0xFFFF#24) = op ∧ (op ++ 0xFFFF#24 : Word).extractLsb' 16 8 = 0 ∧
        opcodeOf (op ++ 0x10000#24) = op ∧ (op ++ 0x10000#24 : Word).extractLsb' 16 8 ≠ 0) ∧
    (∀ op ∈ [0x31, 0x32, 0x40, 0x41],
      opcodeOf (op ++ 1#24) = op ∧ (op ++ 1#24 : Word).extractLsb' 1 23 = 0 ∧
        opcodeOf (op ++ 2#24) = op ∧ (op ++ 2#24 : Word).extractLsb' 1 23 ≠ 0) := by
  decide +kernel

theorem witness_StepRunsTheDecodedCommand :
    (State.reset.withFetchWord 32 0x10000014).rst = false ∧
    (State.reset.withFetchWord 32 0x10000014).pending =
      commandWrite State.reset.cfg.toParams 0x10000014 :: [] ∧
    decode 0x10000014 = .ok (.pack 20) := by decide +kernel

theorem witness_IllegalWordChangesOnlyErrorRegisters :
    (State.reset.withFetchWord 32 0x05000000).rst = false ∧
    (State.reset.withFetchWord 32 0x05000000).pending =
      commandWrite State.reset.cfg.toParams 0x05000000 :: [] ∧
    (∀ row ∈ commandTable, (0x05000000 : Word) &&& row.2 ≠ row.1) ∧
    (∀ row ∈ commandTable, (0x40000002 : Word) &&& row.2 ≠ row.1) :=
  ⟨rfl, rfl, by simp [commandTable], by simp [commandTable]⟩

theorem witness_IdleStepChangesNothing : State.reset.pending = [] := rfl

theorem witness_SrstResetsRegistersAndKeepsBuffers : IsRegister .hctl ∧ IsRegister (.hhi 8) :=
  ⟨trivial, trivial⟩

/-- A state in which a hardware reset is about to arrive. -/
def resetComing : State := { parityState with pending := [.reset true], gfa := 5 }

theorem witness_HardwareResetGivesResetValues :
    resetComing.pending = .reset true :: [] ∧ IsRegister .gfa := ⟨rfl, trivial⟩

theorem witness_HardwareResetLeavesBuffersUnspecified :
    resetComing.pending = .reset true :: [] ∧ ∃ t, step resetComing = .next t := ⟨rfl, _, rfl⟩

/-- A block held in reset with one event pending. -/
def held (e : HostEvent) : State := { State.reset with rst := true, pending := [e] }

theorem witness_HeldInResetServesNothing :
    (held (.read 0x000 .four)).rst = true ∧
    (held (.read 0x000 .four)).pending = .read (State.reset.cfg.base + 0x000) .four :: [] ∧
    (held (.write 0xFFFF .four 0)).pending = .write (State.reset.cfg.base + 0xFFFF) .four 0 :: [] ∧
    0xFFFF < 65536 ∧
    (held (.reset false)).pending = .reset false :: [] := ⟨rfl, rfl, rfl, by decide, rfl⟩

/-- One witness for each of the three forms of a failed command. -/
theorem witness_FailedCommandsArePrecise :
    (∃ t, State.reset.command exec 0x02000000 = .next t ∧ (t.lastErr == 3) = true) ∧
    (∃ t, mismatchState.command exec 0x21000000 = .next t ∧ (t.lastErr == 5) = true) ∧
    (∃ t, State.reset.command exec 0x30000000 = .next t ∧ (t.lastErr == 6) = true) :=
  ⟨exists_of_nextIs (f := fun t => t.lastErr == 3) (by decide +kernel),
    exists_of_nextIs (f := fun t => t.lastErr == 5) (by decide +kernel),
    exists_of_nextIs (f := fun t => t.lastErr == 6) (by decide +kernel)⟩

theorem witness_SuccessfulCommandsKeepErrorRegisters :
    ∃ t, State.reset.command exec 0x00000000 = .next t ∧ t.lastErr = 0 ∧
      (0x00000000 : Word) ≠ 0x7F000000 := ⟨_, rfl, rfl, by decide⟩

theorem witness_AcknowledgeClearsTheWrittenBits :
    ∃ s : State, s.rst = false ∧ s.pending = .write (s.cfg.base + 0x018) .four 0x1FE :: [] :=
  ⟨{ State.reset with pending := [.write 0x018 .four 0x1FE] }, rfl, rfl⟩

theorem witness_LegalPolynomialsMakeAlphaAGenerator :
    Params.default.wf = true ∧ isGenerator 0x11D = true ∧ isGenerator 0x12B = true ∧
      isGenerator 0x11B = false := by
  decide +kernel

theorem witness_LogIsTheUniqueExponent :
    (0x8E : Byte) ≠ 0 ∧ alphaPow LegalParams.default.gfPoly 254 = 0x8E := by decide +kernel

theorem witness_QuotientIsTheUniqueInverseOfTheProduct :
    (0xFF : Byte) ≠ 0 ∧ gfMul LegalParams.default.gfPoly 0xFD 0xFF = 0x01 := by decide +kernel

theorem witness_FieldLaws :
    gfMul LegalParams.default.gfPoly 0x00 0x53 = 0 ∧ (0x53 : Byte) ≠ 0 := by decide +kernel

theorem witness_GfdivDividesOrRaises :
    State.reset.gfb = 0 ∧ State.gfb { State.reset with gfb := 0xFF } ≠ 0 := by decide

theorem witness_GflogFindsTheExponentOrRaises :
    State.reset.gfa = 0 ∧ State.gfa { State.reset with gfa := 0xFF } ≠ 0 := by decide

/-- Both limits, on each side: `BV_MAX` = 512 at the default, `8·SB_MAX` = 8 in the small block. -/
theorem witness_PackMovesBitsToBytes :
    513 > State.reset.cfg.bvMax ∧ (512 ≤ State.reset.cfg.bvMax ∧ 512 ≤ 8 * State.reset.cfg.sbMax) ∧
    9 > 8 * smallState.cfg.sbMax ∧ (8 ≤ smallState.cfg.bvMax ∧ 8 ≤ 8 * smallState.cfg.sbMax) := by
  decide

theorem witness_UnpackMovesBytesToBits :
    513 > State.reset.cfg.bvMax ∧ (512 ≤ State.reset.cfg.bvMax ∧ 512 ≤ 8 * State.reset.cfg.sbMax) ∧
    9 > 8 * smallState.cfg.sbMax ∧ (8 ≤ smallState.cfg.bvMax ∧ 8 ≤ 8 * smallState.cfg.sbMax) := by
  decide

theorem witness_RleGroupsRunsThatExpandToTheBits :
    513 > State.reset.cfg.bvMax ∧ 512 ≤ State.reset.cfg.bvMax ∧ 0 ≤ State.reset.cfg.bvMax := by
  decide

theorem witness_PackAndUnpackAreRoundTrips :
    (512 ≤ State.reset.cfg.bvMax ∧ 512 ≤ 8 * State.reset.cfg.sbMax ∧ 512 % 8 = 0) ∧
    (8 ≤ smallState.cfg.bvMax ∧ 8 ≤ 8 * smallState.cfg.sbMax) := by decide

theorem witness_PargenComputesTheParityBytes :
    State.slen { parityState with slen := 65 } > State.reset.cfg.sbMax ∧ State.reset.prows = 0 ∧
    (State.prows { parityState with prows := 5 }).toNat > State.reset.cfg.kMax ∧
    (State.slen { parityState with slen := 64 }).toNat ≤ State.reset.cfg.sbMax ∧
    State.prows { parityState with prows := 4 } ≠ 0 ∧
    (State.prows { parityState with prows := 4 }).toNat ≤ State.reset.cfg.kMax := by decide

theorem witness_ParchkComparesTheParityGroup :
    (parityState.slen.toNat ≤ parityState.cfg.sbMax ∧ parityState.prows ≠ 0 ∧
      parityState.prows.toNat ≤ parityState.cfg.kMax ∧ parityState.pbits ≠ 0 ∧
      parityState.pbits.toNat ≤ 8 * parityState.prows.toNat ∧ GroupsAgree parityState) ∧
    (mismatchState.pbits.toNat ≤ 8 * mismatchState.prows.toNat ∧ ¬GroupsAgree mismatchState) ∧
    State.reset.pbits = 0 ∧
    (State.pbits { parityState with pbits := 17 }).toNat > 8 * parityState.prows.toNat := by
  unfold GroupsAgree
  decide +kernel

/-- A shard of one byte with coefficient `c` in row 0. -/
def oneByte (c b : Byte) : State :=
  { State.reset with slen := 1, prows := 1, sb := [(0, b)], cf := [(0, c)] }

theorem witness_ParityIsLinearInTheShard :
    ((oneByte 3 0x0F).cfg = (oneByte 3 0xF5).cfg ∧ (oneByte 3 0xFA).cfg = (oneByte 3 0xF5).cfg ∧
      (oneByte 3 0x0F).slen = (oneByte 3 0xF5).slen ∧ (oneByte 3 0xFA).slen = (oneByte 3 0xF5).slen) ∧
    (∀ i < (oneByte 3 0xF5).slen.toNat,
      (oneByte 3 0x0F).cfAt 0 i = (oneByte 3 0xF5).cfAt 0 i ∧
      (oneByte 3 0xFA).cfAt 0 i = (oneByte 3 0xF5).cfAt 0 i ∧
      (oneByte 3 0xF5).sbAt i = (oneByte 3 0x0F).sbAt i ^^^ (oneByte 3 0xFA).sbAt i) ∧
    (∀ i < (oneByte 1 0xF5).slen.toNat, (oneByte 1 0xF5).cfAt 0 i = 0x01) := by decide +kernel

theorem witness_ByteChangeMovesTheParityByItsProduct :
    (oneByte 3 0x0E).cfg = (oneByte 3 0x0F).cfg ∧ (oneByte 3 0x0E).slen = (oneByte 3 0x0F).slen ∧
    (∀ j, (oneByte 3 0x0E).cfAt 0 j = (oneByte 3 0x0F).cfAt 0 j) ∧
    0 < (oneByte 3 0x0F).slen.toNat ∧ (0x01 : Byte) ≠ 0 ∧
    (oneByte 3 0x0E).sbAt 0 = (oneByte 3 0x0F).sbAt 0 ^^^ 0x01 ∧
    (∀ j, j ≠ 0 → (oneByte 3 0x0E).sbAt j = (oneByte 3 0x0F).sbAt j) := by
  refine ⟨rfl, rfl, fun _ => rfl, by decide, by decide, by decide, fun j hj => ?_⟩
  simp [State.sbAt, oneByte, Memory.get?, hj]

theorem witness_SingleParityBitFlipIsDetected :
    15 < parityState.pbits.toNat ∧ parityState.pbits.toNat ≤ 8 * parityState.prows.toNat ∧
    parityState.prows.toNat ≤ parityState.cfg.kMax ∧ parityState.parityMatches = true := by
  decide +kernel

/-- The corners of a square of side `r`, as raws. -/
def square (x y r : Word) : Vector Word 4 × Vector Word 4 :=
  (#v[x, x + r, x, x + r], #v[y, y, y + r, y + r])

/-- The unit square as source and as destination. -/
def identityState : State :=
  { State.reset with
    srcx := (square 0 0 65536).1, srcy := (square 0 0 65536).2
    dstx := (square 0 0 65536).1, dsty := (square 0 0 65536).2 }

/-- A correspondence under which the source origin goes to infinity: (x, y) to ((x + 1)/x, y/x). -/
def infinityState : State :=
  { State.reset with
    srcx := #v[65536, 65536, 131072, 131072], srcy := #v[0, 65536, 0, 65536]
    dstx := #v[131072, 131072, 98304, 98304], dsty := #v[0, 65536, 0, 32768] }

/-- A source square of one raw unit and the largest destination square: the factor is 2^31. -/
def overflowState : State :=
  { State.reset with
    srcx := (square 0 0 1).1, srcy := (square 0 0 1).2
    dstx := (square 0xC0000000 0xC0000000 0x80000000).1
    dsty := (square 0xC0000000 0xC0000000 0x80000000).2 }

/-- The reset state's four points coincide; those of `solverState` are in general position. -/
theorem witness_BasisMapExistsInGeneralPosition :
    ¬GeneralPosition (sourcePoints State.reset) ∧ GeneralPosition (sourcePoints solverState) := by
  unfold GeneralPosition
  decide +kernel

theorem solverState_source : (basisMap (sourcePoints solverState)).isSome = true := by
  decide +kernel

theorem solverState_destination : (basisMap (destinationPoints solverState)).isSome = true := by
  decide +kernel

theorem witness_ExactHomographyMapsTheFourPoints :
    ∃ a b, basisMap (sourcePoints solverState) = some a ∧
      basisMap (destinationPoints solverState) = some b ∧
      (mul3 b (inv3 a)).i ≠ 0 ∧ (mul3 a (inv3 b)).i ≠ 0 := by
  refine ⟨_, _, (Option.some_get solverState_source).symm,
    (Option.some_get solverState_destination).symm, ?_⟩
  decide +kernel

theorem witness_HsolveStoresTheRoundedMatrices :
    ∃ a b, basisMap (sourcePoints solverState) = some a ∧
      basisMap (destinationPoints solverState) = some b ∧
      (mul3 b (inv3 a)).i ≠ 0 ∧ (mul3 a (inv3 b)).i ≠ 0 ∧
      EntriesFit (mul3 b (inv3 a)) ∧ EntriesFit (mul3 a (inv3 b)) := by
  refine ⟨_, _, (Option.some_get solverState_source).symm,
    (Option.some_get solverState_destination).symm, ?_⟩
  unfold EntriesFit
  decide +kernel

theorem infinityState_source : (basisMap (sourcePoints infinityState)).isSome = true := by
  decide +kernel

theorem infinityState_destination : (basisMap (destinationPoints infinityState)).isSome = true := by
  decide +kernel

theorem overflowState_source : (basisMap (sourcePoints overflowState)).isSome = true := by
  decide +kernel

theorem overflowState_destination : (basisMap (destinationPoints overflowState)).isSome = true := by
  decide +kernel

theorem witness_HsolveRaisesSingular :
    ¬GeneralPosition (sourcePoints State.reset) ∧
    ∃ a b, basisMap (sourcePoints infinityState) = some a ∧
      basisMap (destinationPoints infinityState) = some b ∧ (mul3 b (inv3 a)).i = 0 := by
  refine ⟨by unfold GeneralPosition; decide +kernel, _, _,
    (Option.some_get infinityState_source).symm,
    (Option.some_get infinityState_destination).symm, ?_⟩
  decide +kernel

theorem witness_HsolveRaisesOverflow :
    ∃ a b, basisMap (sourcePoints overflowState) = some a ∧
      basisMap (destinationPoints overflowState) = some b ∧
      (mul3 b (inv3 a)).i ≠ 0 ∧ (mul3 a (inv3 b)).i ≠ 0 ∧
      ¬(EntriesFit (mul3 b (inv3 a)) ∧ EntriesFit (mul3 a (inv3 b))) := by
  refine ⟨_, _, (Option.some_get overflowState_source).symm,
    (Option.some_get overflowState_destination).symm, ?_⟩
  unfold EntriesFit
  decide +kernel

theorem witness_EqualSetsGiveTheIdentity :
    identityState.dstx = identityState.srcx ∧ identityState.dsty = identityState.srcy ∧
      GeneralPosition (sourcePoints identityState) := by
  unfold GeneralPosition
  decide +kernel

theorem witness_HmapMapsForwardByH : State.reset.hvalid = false ∧ mapperState.hvalid = true :=
  ⟨rfl, rfl⟩

theorem witness_HimapMapsBackwardByG : State.reset.hvalid = false ∧ mapperState.hvalid = true :=
  ⟨rfl, rfl⟩

theorem witness_ZeroMatrixMapsNoPoint :
    State.hvalid { State.reset with hvalid := true } = true ∧
    (∀ k < 9, cellOr 0 State.reset.h k = 0) ∧ (∀ k < 9, cellOr 0 State.reset.g k = 0) := by decide

theorem witness_RhuRoundsToNearestTiesUp : (0 : Int) < 2 := by decide

/-- The last cell of each window is listed, the next is not. -/
theorem witness_AddressMapIsTheTable :
    Reg.listed Params.default (.hhi 8) ∧ Reg.listed Params.default (.cf 3 63) ∧
    Reg.listed Params.default (.rl 511) ∧ ¬Reg.listed Params.default (.sb 64) ∧
    0x87FC % 4 = 0 ∧ regAt Params.default 0x87FC = some (.rl 511) := by
  simp [Reg.listed, Params.default]
  decide

/-- A state with one event pending. -/
def withEvent (e : HostEvent) : State := { State.reset with pending := [e] }

theorem witness_HostTransactionsReachTheListedRegisters :
    (withEvent (.read 0x4FC .four)).rst = false ∧ Reg.listed State.reset.cfg.toParams (.sb 63) ∧
    (withEvent (.read 0x4FC .four)).pending =
      .read (State.reset.cfg.base + Reg.offset (.sb 63)) .four :: [] ∧ Reg.sb 63 ≠ .cmd ∧
    (withEvent (.write 0x4FC .four 7)).pending =
      .write (State.reset.cfg.base + Reg.offset (.sb 63)) .four 7 :: [] :=
  ⟨rfl, by simp [Reg.listed, State.reset, LegalParams.default, Params.default], rfl, by decide, rfl⟩

/-- A block whose window stands at 0x40000000: the address before the window and the one after it. -/
theorem witness_addresses_outside_the_window :
    0x3FFFFFFC < smallState.cfg.base ∧ smallState.cfg.base + 65536 ≤ 0x40010000 ∧
    State.pending { smallState with pending := [.read 0x3FFFFFFC .four] } =
      .read 0x3FFFFFFC .four :: [] := by decide

/-- The first and the last offset of each clause of the two statements on the fields of registers. -/
def boundaryOffsets : List Nat :=
  [0x000, 0x074, 0x080, 0x0A4 + 8 * 3, 0x0C0, 0x0C4 + 8 * 8, 0x140, 0x144 + 8 * 8, 0x1C0,
   0x1C0 + 4 * 3, 0x1E0, 0x1E0 + 4 * 3, 0x400, 0x400 + 4 * 63, 0x2000,
   0x2000 + 0x400 * 3 + 4 * 63, 0x4000, 0x4000 + 4 * 511, 0x8000, 0x8000 + 4 * 511]

theorem witness_RegistersReadTheirFields :
    (∀ off ∈ boundaryOffsets, (withEvent (.read off .four)).rst = false ∧
      (withEvent (.read off .four)).pending = .read (State.reset.cfg.base + off) .four :: []) ∧
    3 < State.reset.cfg.kMax ∧ 63 < State.reset.cfg.sbMax ∧ 511 < State.reset.cfg.bvMax := by
  decide +kernel

theorem witness_RegisterWritesReachTheirFields :
    (∀ off ∈ boundaryOffsets, (withEvent (.write off .four 1)).rst = false ∧
      (withEvent (.write off .four 1)).pending =
        .write (State.reset.cfg.base + off) .four 1 :: []) ∧
    3 < State.reset.cfg.kMax ∧ 63 < State.reset.cfg.sbMax ∧ 511 < State.reset.cfg.bvMax := by
  decide +kernel

theorem witness_WrittenRegistersReadBack :
    Reg.listed State.reset.cfg.toParams (.rxp 3) ∧ rwBits (.rxp 3) = some 0x000000FF ∧
    rwBits (.par 0) = none ∧ Reg.par 0 ≠ .estat ∧ Reg.par 0 ≠ .cmd :=
  ⟨by simp [Reg.listed, State.reset, LegalParams.default, Params.default], rfl, rfl, by decide, by decide⟩

theorem witness_WritesDoNotAlias :
    Reg.listed State.reset.cfg.toParams (.hlo 8) ∧ Reg.listed State.reset.cfg.toParams (.hhi 8) ∧
    Reg.hlo 8 ≠ .cmd ∧ Reg.hhi 8 ≠ .hlo 8 ∧ Reg.hhi 8 ≠ .status :=
  ⟨by simp [Reg.listed], by simp [Reg.listed], by decide, by decide, by decide⟩

/-- A width of two, an offset of 2, and the first offset past `SB`. -/
theorem witness_BadTransactionsAreBusErrors :
    (withEvent (.read 0x000 .two)).pending = .read (State.reset.cfg.base + 0x000) .two :: [] ∧
    Width.two ≠ .four ∧ 0xFFFE < 65536 ∧ 0xFFFE % 4 ≠ 0 ∧ 0x500 % 4 = 0 ∧
    regAt State.reset.cfg.toParams 0x500 = none := by decide

theorem witness_unlisted_offset (r : Reg) (h : r.listed State.reset.cfg.toParams) :
    r.offset ≠ 0x078 := by
  cases r <;> simp only [Reg.offset, Reg.listed] at * <;> simp <;> omega

theorem witness_EveryStepKeepsTheInvariant :
    State.Inv (withEvent (.write 0x400 .four 0xFF)) ∧
      ∃ t, step (withEvent (.write 0x400 .four 0xFF)) = .next t := by
  refine ⟨⟨⟨.nil, .nil, .nil, .nil, ?_, ?_, ?_, ?_⟩, ⟨?_, ?_⟩, ?_, ?_, ?_, ?_, ?_, ?_⟩, _, rfl⟩
  all_goals simp [withEvent, State.reset, State.PixelOk, noIndex, sentinel]
  all_goals
    intro k _
    simp [State.parAt, State.rxpAt, cellOr, Vector.getElem?_replicate]
    split <;> rfl

theorem witness_CommandsWriteOnlyTheirBuffer :
    (∃ t, exec (.pack 8) (withBits State.reset) = .next t) ∧ (∀ n, Instr.gfmul ≠ .pack n) ∧
    State.reset.cfg.sbMax ≤ 64 ∧ State.reset.cfg.bvMax ≤ 512 :=
  ⟨⟨_, rfl⟩, (fun _ h => nomatch h), by decide, by decide⟩

theorem witness_ParametersNeverChange : ∃ t, step (withEvent (.reset true)) = .next t := ⟨_, rfl⟩

theorem witness_CommandsKeepTheHostsRegisters :
    (∃ t, exec .pargen parityState = .next t ∧ (t.par == parityState.rxp) = true) ∧
      Instr.pargen ≠ .srst :=
  ⟨exists_of_nextIs (f := fun t => t.par == parityState.rxp) (by decide +kernel), by decide⟩

end Sys2Proof.Tests
end

/-! ## Proofs: the scope rules (00_scope.md R5, R9, R12)

What a command other than SRST may change, what a host write and a step keep of the parameters, the
one rounding of the model, the idle step. -/

namespace Sys2Proof.Machine

/-! ### What a command may change -/

/-- `s` with every field that some command other than SRST writes taken from `u`: the error
registers, the status flags, the result registers, the matrices, `PAR`, and the buffers `SB`, `BV`
and `RL`. The parameters, the operand registers and what is outside the block are those of `s`. -/
def State.withResultsOf (s u : State) : State :=
  { s with
    lastErr := u.lastErr, pmatch := u.pmatch, pinv := u.pinv, oob := u.oob
    estat := u.estat, ecmd := u.ecmd, hvalid := u.hvalid, gfr := u.gfr, rlcnt := u.rlcnt
    rx := u.rx, ry := u.ry, pxi := u.pxi, pyi := u.pyi, pidx := u.pidx
    h := u.h, g := u.g, par := u.par, sb := u.sb, bv := u.bv, rl := u.rl }

@[simp] theorem State.withResultsOf_cfg (s u : State) : (s.withResultsOf u).cfg = s.cfg := rfl

theorem State.setPoint_eq_withResultsOf (s : State) (q : Option RawPoint) :
    s.setPoint q = s.withResultsOf (s.setPoint q) := by
  cases q <;> rfl

theorem State.setPoint_done_eq_withResultsOf (s : State) (q : Option RawPoint) :
    (s.setPoint q).done = s.withResultsOf (s.setPoint q).done :=
  congrArg State.done (s.setPoint_eq_withResultsOf q)

/-- 20_memory.md R81: a command other than SRST writes result fields only. -/
theorem exec_eq_withResultsOf {i : Instr} {s t : State} (h : exec i s = .next t)
    (hi : i ≠ .srst) : t = s.withResultsOf t := by
  cases i with
  | srst => exact absurd rfl hi
  | nop | gfmul | gfexp => cases h; rfl
  | gfdiv | gflog | pack n | unpack n | rle n | pargen =>
    simp only [exec, execGfdiv, execGflog, execPack, execUnpack, execRle, execPargen] at h
    split at h <;> cases h <;> rfl
  | parchk =>
    simp only [exec, execParchk] at h
    split_ifs at h <;> cases h <;> rfl
  | hsolve | nint p =>
    simp only [exec, execHsolve, execNint] at h
    split at h <;> cases h <;> rfl
  | scale p => cases h; exact s.setPoint_done_eq_withResultsOf _
  | hmap p | himap p =>
    simp only [exec, execHmap, execHimap] at h
    split at h <;> cases h
    · exact s.setPoint_done_eq_withResultsOf _
    · rfl

/-! ### The parameters (00_scope.md R5) -/

/-- SRST keeps the parameters too (45_system.md R212), so every command does. -/
theorem exec_cfg {i : Instr} {s t : State} (h : exec i s = .next t) : t.cfg = s.cfg := by
  by_cases hi : i = .srst
  · subst hi
    cases h
    exact s.resetRegisters_cfg
  · rw [exec_eq_withResultsOf h hi, State.withResultsOf_cfg]

@[simp] theorem State.writeReg_cfg (s : State) (v : Word) (r : Reg) :
    (s.writeReg v r).cfg = s.cfg := by
  cases r <;> rfl

theorem State.command_cfg {s t : State} {w : Word} (h : s.command exec w = .next t) :
    t.cfg = s.cfg := by
  obtain ⟨i, -, hi⟩ | ⟨-, rfl⟩ := State.command_eq_next.mp h
  · exact exec_cfg hi
  · exact s.raise_cfg _ _

theorem serve_cfg {s t : State} {e : HostEvent} (h : serve exec s e = .next t) :
    t.cfg = s.cfg := by
  obtain ⟨-, rfl⟩ | ⟨-, rfl⟩ | ⟨_, _, -, -, rfl⟩ | ⟨-, _, _, -, -, -, rfl⟩ |
    ⟨-, _, v, u, -, -, rfl, hu⟩ := serve_cases h
  case inl => exact s.hardReset_cfg
  case inr.inl | inr.inr.inl | inr.inr.inr.inl => rfl
  case inr.inr.inr.inr =>
    obtain ⟨-, hcmd⟩ | ⟨r, -, -, rfl⟩ := hu
    · exact (State.command_cfg hcmd :)
    · exact s.writeReg_cfg v r

theorem step_cfg {s t : State} (h : step s = .next t) : t.cfg = s.cfg := by
  obtain ⟨-, rfl⟩ | ⟨_, _, -, hserve⟩ := step_cases h
  · rfl
  · exact (serve_cfg hserve :)

/-! ### The rounding (00_scope.md R9) -/

theorem rhu_eq_floor (q : ℚ) : rhu q = ⌊q + 1 / 2⌋ := rfl

/-- Over the common denominator `2d` the sum `n/d + 1/2` is one integer quotient, whose rational
floor is the integers' floor division. -/
theorem rhu_intCast_div {n d : Int} (hd : 0 < d) :
    rhu ((n : ℚ) / d) = (2 * n + d) / (2 * d) := by
  have hd0 : (d : ℚ) ≠ 0 := by exact_mod_cast hd.ne'
  have hsum : (n : ℚ) / d + 1 / 2 = ((2 * n + d : Int) : ℚ) / ((2 * d : Int) : ℚ) := by
    push_cast
    field_simp
  rw [rhu_eq_floor, hsum, Int.floor_div_cast_of_nonneg (by omega), Int.floor_intCast]

/-! ### The idle step (00_scope.md R12) -/

theorem step_of_pending_nil {s : State} (h : s.pending = []) : step s = .next s := by
  simp only [step, h]

end Sys2Proof.Machine

namespace Sys2Proof.Proofs

open Sys2Proof.Machine

/-- Settles O57: the step serves at most one event, and serving an event keeps the parameters. -/
theorem parametersNeverChange : Obligations.ParametersNeverChange := by
  unfold Obligations.ParametersNeverChange
  intro s t h
  exact step_cfg h

/-- Settles O46: each example is an instance of the integer form. -/
theorem rhuRoundsToNearestTiesUp : Obligations.RhuRoundsToNearestTiesUp := by
  unfold Obligations.RhuRoundsToNearestTiesUp
  refine ⟨rhu_eq_floor, fun n d hd => rhu_intCast_div hd, ?_, ?_, ?_, ?_, ?_⟩
  · simpa using rhu_intCast_div (n := 1) (d := 2) (by decide)
  · simpa using rhu_intCast_div (n := 3) (d := 2) (by decide)
  · simpa using rhu_intCast_div (n := -1) (d := 2) (by decide)
  · simpa using rhu_intCast_div (n := -3) (d := 2) (by decide)
  · simpa using rhu_intCast_div (n := -6) (d := 10) (by decide)

/-- Settles O7: an empty pending list gives the step no event to serve. -/
theorem idleStepChangesNothing : Obligations.IdleStepChangesNothing := by
  unfold Obligations.IdleStepChangesNothing
  intro s h
  exact step_of_pending_nil h

end Sys2Proof.Proofs

/-! ## Proofs: the state of the block (10_state.md R22, R28, R29, R53, R54)

The bits of the status words, the reset values of the registers, the two steps that change the state
without a command (a hardware reset, a host write), and what a host write leaves unchanged. -/

namespace Sys2Proof.Machine

open Sys2Proof.Claims

/-! ### The bits of the status words (10_state.md R28, R29, R32) -/

theorem getLsbD_flagAt (b : Bool) {i : Nat} (hi : i < 32) (j : Nat) :
    (flagAt b i).getLsbD j = (b && decide (j = i)) := by
  cases b with
  | false => simp [flagAt]
  | true =>
    simp only [flagAt, if_true, BitVec.getLsbD_shiftLeft, BitVec.getLsbD_one, Bool.true_and]
    grind

/-- Each bit of `STATUS` is the field's that R28 puts there; no two fields meet. -/
theorem getLsbD_statusWord (s : State) (j : Nat) :
    (statusWord s).getLsbD j =
      (s.lastErr.getLsbD j || (s.pmatch && decide (j = 8)) || (s.pinv && decide (j = 9)) ||
        (s.oob && decide (j = 10)) || (s.hvalid && decide (j = 11)) ||
        (s.irq && decide (j = 12))) := by
  have hlast : (s.lastErr.setWidth 32).getLsbD j = s.lastErr.getLsbD j := by
    simp only [BitVec.getLsbD_setWidth]
    grind
  simp only [statusWord, BitVec.getLsbD_or, hlast]
  rw [getLsbD_flagAt _ (by decide), getLsbD_flagAt _ (by decide), getLsbD_flagAt _ (by decide),
    getLsbD_flagAt _ (by decide), getLsbD_flagAt _ (by decide)]

theorem statusWord_lastErr (s : State) : (statusWord s).extractLsb' 0 8 = s.lastErr := by
  apply BitVec.eq_of_getLsbD_eq
  intro j hj
  rw [BitVec.getLsbD_extractLsb', getLsbD_statusWord]
  grind

/-- Above `LASTERR` a bit of `STATUS` is a flag or 0. -/
theorem getLsbD_statusWord_of_ge (s : State) {j : Nat} (hj : 8 ≤ j) :
    (statusWord s).getLsbD j =
      ((s.pmatch && decide (j = 8)) || (s.pinv && decide (j = 9)) || (s.oob && decide (j = 10)) ||
        (s.hvalid && decide (j = 11)) || (s.irq && decide (j = 12))) := by
  rw [getLsbD_statusWord, BitVec.getLsbD_of_ge _ _ hj, Bool.false_or]

theorem statusWord_reserved (s : State) : (statusWord s).extractLsb' 13 19 = 0#19 := by
  apply BitVec.eq_of_getLsbD_eq
  intro j hj
  rw [BitVec.getLsbD_extractLsb', getLsbD_statusWord_of_ge s (by omega), BitVec.getLsbD_zero]
  grind

theorem getLsbD_hctlWord (s : State) (j : Nat) :
    (hctlWord s).getLsbD j = ((s.hvalid && decide (j = 0)) || (s.bnd && decide (j = 1))) := by
  rw [hctlWord, BitVec.getLsbD_or, getLsbD_flagAt _ (by decide), getLsbD_flagAt _ (by decide)]

/-- The field of bits 8:1 after an acknowledgement is the word after it (R29): bits 0 and 31:9 of
the written word meet zeros. -/
theorem errWord_and_not_errField (f : BitVec 8) (v : Word) :
    errWord (f &&& ~~~ errField v) = errWord f &&& ~~~ v := by
  apply BitVec.eq_of_getLsbD_eq
  intro j hj
  simp only [errWord, errField, BitVec.getLsbD_shiftLeft, BitVec.getLsbD_setWidth,
    BitVec.getLsbD_and, BitVec.getLsbD_not, BitVec.getLsbD_extractLsb']
  grind

/-! ### The capabilities (10_state.md R25, R26) -/

/-- Two 16-bit fields side by side, as one number. -/
theorem ofNat_append_ofNat (a : Nat) {b : Nat} (hb : b < 2 ^ 16) :
    (BitVec.ofNat 16 a ++ BitVec.ofNat 16 b : Word) = BitVec.ofNat 32 (a * 2 ^ 16 + b) := by
  apply BitVec.eq_of_toNat_eq
  simp only [BitVec.toNat_append, BitVec.toNat_ofNat, Nat.mod_eq_of_lt hb]
  rw [← Nat.shiftLeft_add_eq_or_of_lt hb, Nat.shiftLeft_eq]
  omega

theorem cap0Word_eq_ofNat (c : LegalParams) :
    cap0Word c.toParams = BitVec.ofNat 32 (c.kMax * 2 ^ 16 + c.sbMax) := by
  have hbounds := LegalParams.bounds c
  exact ofNat_append_ofNat c.kMax (by omega)

theorem cap1Word_eq_ofNat (c : LegalParams) :
    cap1Word c.toParams = BitVec.ofNat 32 (c.gfPoly.toNat * 2 ^ 16 + c.bvMax) := by
  have hbounds := LegalParams.bounds c
  rw [cap1Word, ← BitVec.ofNat_toNat]
  exact ofNat_append_ofNat c.gfPoly.toNat (by omega)

/-! ### The reset values (10_state.md R53) -/

@[simp] theorem cellOr_replicate {α : Type} (n : Nat) (z : α) (k : Nat) :
    cellOr z (Vector.replicate n z) k = z := by
  rw [cellOr, Vector.getElem?_replicate]
  split <;> rfl

theorem State.resetRegisters_irq (s : State) : s.resetRegisters.irq = false := by
  simp [State.irq, State.reset]

theorem statusWord_resetRegisters (s : State) : statusWord s.resetRegisters = 0 := by
  simp [statusWord, State.resetRegisters_irq, State.reset, flagAt]

theorem hctlWord_resetRegisters (s : State) : hctlWord s.resetRegisters = 0x00000002 := by
  simp [hctlWord, State.reset, flagAt]

/-- A state that the reset of the registers leaves as it is reads the word of R53 at every
register. -/
theorem State.readReg_eq_resetWord {s : State} (hs : s.resetRegisters = s) {r : Reg}
    (hr : IsRegister r) : s.readReg r = resetWord s.cfg.toParams r := by
  rw [← hs]
  cases r with
  | cap0 => exact cap0Word_eq_ofNat s.cfg
  | cap1 => exact cap1Word_eq_ofNat s.cfg
  | status => exact statusWord_resetRegisters s
  | hctl => exact hctlWord_resetRegisters s
  | srcx k | srcy k | dstx k | dsty k => exact cellOr_replicate 4 0 k
  | hlo k | glo k => exact congrArg lowHalf (cellOr_replicate 9 0 k)
  | hhi k | ghi k => exact congrArg highHalf (cellOr_replicate 9 0 k)
  | par k | rxp k => exact congrArg (BitVec.setWidth 32) (cellOr_replicate 8 0 k)
  | sb | cf | bv | rl => exact hr.elim
  | _ => rfl

/-! ### The hardware reset as a step (10_state.md R53, R54) -/

/-- The assertion of the reset input, whatever its level was before. -/
theorem step_of_pending_reset {s : State} {rest : List HostEvent}
    (h : s.pending = .reset true :: rest) :
    step s = .next { s.hardReset with rst := true, pending := rest, resp := .none } := by
  simp only [step, h]
  rfl

/-! ### A host write as a step (20_memory.md R71, R75) -/

theorem State.writeReg_pending (s : State) (rest : List HostEvent) (v : Word) (r : Reg) :
    { s with pending := rest }.writeReg v r = { s.writeReg v r with pending := rest } := by
  cases r <;> rfl

theorem step_of_pending_write {s : State} {off : Nat} {v : Word} {r : Reg} {rest : List HostEvent}
    (hrst : s.rst = false) (hoff : off < windowSize) (hal : off % 4 = 0)
    (hreg : regAt s.cfg.toParams off = some r) (hcmd : r ≠ .cmd)
    (h : s.pending = .write (s.cfg.base + off) .four v :: rest) :
    step s = .next { s.writeReg v r with pending := rest, resp := .written } := by
  have hserve := State.transaction_base_add { s with pending := rest } hoff .four fun q =>
    respond .written (if q = .cmd then { s with pending := rest }.command exec v
      else .next ({ s with pending := rest }.writeReg v q))
  simp only [step, h]
  refine hserve.trans (State.target_eq_next.mpr ⟨hrst, rfl, hal, r, hreg, ?_⟩)
  rw [if_neg hcmd, State.writeReg_pending]
  rfl

/-! ### What a host write leaves unchanged (10_state.md R22, 20_memory.md R79) -/

theorem cellOr_setIfInBounds_of_ne {α : Type} {n : Nat} (z : α) (f : Vector α n) {i j : Nat}
    (v : α) (h : i ≠ j) : cellOr z (f.setIfInBounds i v) j = cellOr z f j := by
  rw [cellOr, Vector.getElem?_setIfInBounds_ne h, cellOr]

/-- A write to an element that leaves `p` of it as it was leaves `p` of every element so. -/
theorem cellOr_setIfInBounds_proj {α β : Type} {n : Nat} (z : α) (f : Vector α n) (p : α → β)
    {i : Nat} {v : α} (h : p v = p (cellOr z f i)) (j : Nat) :
    p (cellOr z (f.setIfInBounds i v) j) = p (cellOr z f j) := by
  by_cases hij : i = j
  · subst hij
    by_cases hi : i < n
    · simpa [cellOr, hi] using h
    · simp [cellOr, hi]
  · rw [cellOr_setIfInBounds_of_ne z f v hij]

theorem lowHalf_setHighHalf (e : Entry) (v : Word) : lowHalf (setHighHalf e v) = lowHalf e :=
  BitVec.extractLsb'_append_eq_right

theorem highHalf_setLowHalf (e : Entry) (v : Word) : highHalf (setLowHalf e v) = highHalf e :=
  BitVec.extractLsb'_append_eq_left

theorem State.cfAt_set (s : State) {k i k' i' : Nat} (hi : i < 256) (hi' : i' < 256) (v : Byte) :
    State.cfAt { s with cf := Memory.set s.cf (cfIndex k i) v } k' i' =
      if k' = k ∧ i' = i then v else s.cfAt k' i' := by
  simp only [State.cfAt, Memory.get?_set, cfIndex_inj hi' hi]
  split <;> rfl

/-- A register but `STATUS` reads a field that a write to no other register reaches (R22). The
scalars differ in the field; within a register file, a matrix or a buffer it is the element, or the
half of it, that differs. `STATUS` shows fields of other registers. -/
theorem State.readReg_writeReg_of_ne {s : State} {v : Word} {r q : Reg}
    (hr : r.listed s.cfg.toParams) (hq : q.listed s.cfg.toParams) (hne : q ≠ r)
    (hstatus : q ≠ .status) : (s.writeReg v r).readReg q = s.readReg q := by
  have hbounds := LegalParams.bounds s.cfg
  cases r with
  | id | version | cap0 | cap1 | cmd | status | ecmd | gfr | rlcnt | rx | ry | pxi | pyi | pidx
  | par | rl => rfl
  | estat | ien | gfa | gfb | slen | prows | pbits | hctl | ptx | pty | sclk | sofx | sofy | imgw
  | imgh | stride =>
    cases q <;> first | rfl | contradiction
  | srcx i | srcy i | dstx i | dsty i =>
    cases q with
    | status => contradiction
    | srcx j | srcy j | dstx j | dsty j =>
      first | rfl | exact cellOr_setIfInBounds_of_ne 0 _ v (mt (congrArg _) hne.symm)
    | _ => rfl
  | hlo i | glo i =>
    cases q with
    | status => contradiction
    | hlo j | glo j =>
      first
      | rfl
      | exact congrArg lowHalf (cellOr_setIfInBounds_of_ne 0 _ _ (mt (congrArg _) hne.symm))
    | hhi j | ghi j =>
      first | rfl | exact cellOr_setIfInBounds_proj 0 _ highHalf (highHalf_setLowHalf _ v) j
    | _ => rfl
  | hhi i | ghi i =>
    cases q with
    | status => contradiction
    | hhi j | ghi j =>
      first
      | rfl
      | exact congrArg highHalf (cellOr_setIfInBounds_of_ne 0 _ _ (mt (congrArg _) hne.symm))
    | hlo j | glo j =>
      first | rfl | exact cellOr_setIfInBounds_proj 0 _ lowHalf (lowHalf_setHighHalf _ v) j
    | _ => rfl
  | rxp i =>
    cases q with
    | status => contradiction
    | rxp j =>
      exact congrArg (BitVec.setWidth 32)
        (cellOr_setIfInBounds_of_ne 0 s.rxp _ (mt (congrArg _) hne.symm))
    | _ => rfl
  | sb i =>
    cases q with
    | status => contradiction
    | sb j =>
      exact congrArg (BitVec.setWidth 32)
        ((s.sbAt_set i j _).trans (if_neg (mt (congrArg _) hne)))
    | _ => rfl
  | bv i =>
    cases q with
    | status => contradiction
    | bv j =>
      exact congrArg (BitVec.setWidth 32)
        ((s.bvAt_set i j _).trans (if_neg (mt (congrArg _) hne)))
    | _ => rfl
  | cf k i =>
    cases q with
    | status => contradiction
    | cf k' i' =>
      obtain ⟨-, hi⟩ := hr
      obtain ⟨-, hi'⟩ := hq
      have hcell := s.cfAt_set (k := k) (k' := k') (v := v.setWidth 8)
        (show i < 256 by omega) (show i' < 256 by omega)
      rw [if_neg (fun ⟨hk, he⟩ => hne (by rw [hk, he]))] at hcell
      exact congrArg (BitVec.setWidth 32) hcell
    | _ => rfl

/-! ### The invariant at reset -/

/-- Before anything is written every buffer is empty, every register file holds zeros, and the
reset input is released. -/
theorem State.reset_inv : State.reset.Inv where
  buffers :=
    { sb_wf := .nil, cf_wf := .nil, bv_wf := .nil, rl_wf := .nil
      sb_exists := by simp [State.reset]
      cf_exists := by simp [State.reset]
      bv_exists := by simp [State.reset]
      rl_exists := by simp [State.reset] }
  point := ⟨(fun h => nomatch h), fun _ => by decide⟩
  pixel := by simp [State.PixelOk, State.reset, noIndex]
  lastErr := by decide
  rlcnt := by decide
  par k _ := cellOr_replicate 8 0 k
  rxp k _ := cellOr_replicate 8 0 k
  held h := nomatch h

end Sys2Proof.Machine

namespace Sys2Proof.Proofs

open Sys2Proof.Machine

/-- Settles O54: every buffer is empty and every register file holds zeros. -/
theorem resetMeetsTheInvariant : Obligations.ResetMeetsTheInvariant := by
  unfold Obligations.ResetMeetsTheInvariant
  exact State.reset_inv

/-- Settles O11: the reset empties the buffers and counts one more reset, so every cell reads the
draw of that reset. -/
theorem hardwareResetLeavesBuffersUnspecified :
    Obligations.HardwareResetLeavesBuffersUnspecified := by
  unfold Obligations.HardwareResetLeavesBuffersUnspecified
  intro s t rest hp ht
  rw [step_of_pending_reset hp] at ht
  cases ht
  exact ⟨_, rfl, fun _ => rfl, fun _ _ => rfl, fun _ => rfl, fun _ => rfl⟩

/-- Settles O10: in both states the registers are those that `resetRegisters` leaves. -/
theorem hardwareResetGivesResetValues : Obligations.HardwareResetGivesResetValues := by
  unfold Obligations.HardwareResetGivesResetValues
  refine ⟨fun r hr => State.readReg_eq_resetWord rfl hr, State.reset.resetRegisters_irq,
    fun s rest hp => ⟨_, step_of_pending_reset hp, rfl, rfl, rfl, fun r hr => ?_, ?_⟩⟩
  · exact State.readReg_eq_resetWord rfl hr
  · exact s.resetRegisters_irq

/-- Settles O18: `STATUS.HVALID` and `HCTL.HVALID` are the same field of the state. -/
theorem statusFieldsStandInTheirBits : Obligations.StatusFieldsStandInTheirBits := by
  unfold Obligations.StatusFieldsStandInTheirBits
  intro s
  have hflag {j : Nat} (hj : 8 ≤ j) : (s.readReg .status).getLsbD j = _ :=
    getLsbD_statusWord_of_ge s hj
  have hhvalid : (s.readReg .status).getLsbD 11 = s.hvalid := (hflag (by decide)).trans (by simp)
  have hhctl : (s.readReg .hctl).getLsbD 0 = s.hvalid := (getLsbD_hctlWord s 0).trans (by simp)
  exact ⟨statusWord_lastErr s, (hflag (by decide)).trans (by simp),
    (hflag (by decide)).trans (by simp), (hflag (by decide)).trans (by simp), hhvalid,
    hhvalid.trans hhctl.symm, (hflag (by decide)).trans (by simp), statusWord_reserved s⟩

/-- Settles O19: the write reaches `ESTAT` and is an acknowledgement. -/
theorem acknowledgeClearsTheWrittenBits : Obligations.AcknowledgeClearsTheWrittenBits := by
  unfold Obligations.AcknowledgeClearsTheWrittenBits
  intro s v rest hrst hp
  have hstep := step_of_pending_write (r := .estat) hrst (by decide) rfl rfl (by decide) hp
  exact ⟨_, hstep, errWord_and_not_errField s.estat v, rfl⟩

/-- Settles O52: each register reads a field of its own, and within a register file or a buffer each
element is a cell of its own. -/
theorem writesDoNotAlias : Obligations.WritesDoNotAlias := by
  unfold Obligations.WritesDoNotAlias
  intro s v r q hr hq _ hne hstatus
  exact State.readReg_writeReg_of_ne hr hq hne hstatus

end Sys2Proof.Proofs

/-! ## Proofs: the address map and the host's transactions (20_memory.md R70 to R81, R88)

The map and the offset column invert each other, what a read shows and what it shows after a write,
the steps that serve a read, a write and a transaction without effect. -/

namespace Sys2Proof.Machine

open Sys2Proof.Claims

/-! ### The address map, both ways (20_memory.md R88) -/

theorem cellIf_eq_some {b : Bool} {q r : Reg} : cellIf b q = some r ↔ b = true ∧ q = r := by
  cases b <;> simp [cellIf]

theorem pairAt_eq_some {d : Nat} {lo hi : Nat → Reg} {r : Reg} :
    pairAt d lo hi = some r ↔ (d % 8 = 0 ∧ lo (d / 8) = r) ∨ (d % 8 ≠ 0 ∧ hi (d / 8) = r) := by
  rw [pairAt, Option.some.injEq]
  split <;> simp [*]

/-- The map gives every listed register at its offset: the offset stands in the band of the
register's file, and the quotient by the stride is the element. -/
theorem regAt_offset {c : LegalParams} {r : Reg} (h : r.listed c.toParams) :
    regAt c.toParams r.offset = some r := by
  have hbounds := LegalParams.bounds c
  cases r with
  | srcx i | dstx i | hlo i | glo i =>
    simp only [Reg.listed, Reg.offset] at *
    simp (disch := omega) only [regAt, if_pos, if_neg]
    exact pairAt_eq_some.mpr (.inl ⟨by omega, congrArg _ (by omega)⟩)
  | srcy i | dsty i | hhi i | ghi i =>
    simp only [Reg.listed, Reg.offset] at *
    simp (disch := omega) only [regAt, if_pos, if_neg]
    exact pairAt_eq_some.mpr (.inr ⟨by omega, congrArg _ (by omega)⟩)
  | par i | rxp i | sb i | bv i | rl i =>
    simp only [Reg.listed, Reg.offset] at *
    simp (disch := omega) only [regAt, if_pos, if_neg]
    exact cellIf_eq_some.mpr ⟨decide_eq_true (by omega), congrArg _ (by omega)⟩
  | cf k i =>
    simp only [Reg.listed, Reg.offset] at *
    simp (disch := omega) only [regAt, if_pos, if_neg]
    have hk : (0x2000 + 0x400 * k + 4 * i - 0x2000) / 0x400 = k := by omega
    have hi : (0x2000 + 0x400 * k + 4 * i - 0x2000) % 0x400 / 4 = i := by omega
    rw [hk, hi]
    exact cellIf_eq_some.mpr ⟨by simpa using h, rfl⟩
  | _ => rfl

/-- The scalar registers stand four bytes apart, from 0x000 on. -/
theorem offset_of_lowRegs {n : Nat} {r : Reg} (h : lowRegs[n]? = some r) : r.offset = 4 * n := by
  have hall : ∀ m : Fin lowRegs.length, lowRegs[m].offset = 4 * m := by decide
  obtain ⟨hn, rfl⟩ := List.getElem?_eq_some_iff.mp h
  exact hall ⟨n, hn⟩

theorem offset_of_pairAt {lo hi : Nat → Reg} {b off : Nat} {r : Reg}
    (hlo : ∀ i, (lo i).offset = b + 8 * i) (hhi : ∀ i, (hi i).offset = b + 4 + 8 * i)
    (hb : b ≤ off) (hal : (off - b) % 4 = 0) (h : pairAt (off - b) lo hi = some r) :
    r.offset = off := by
  obtain ⟨hd, rfl⟩ | ⟨hd, rfl⟩ := pairAt_eq_some.mp h
  · rw [hlo]; omega
  · rw [hhi]; omega

theorem offset_of_cellIf {q r : Reg} {b : Bool} {off : Nat} (hq : q.offset = off)
    (h : cellIf b q = some r) : r.offset = off := by
  obtain ⟨-, rfl⟩ := cellIf_eq_some.mp h
  exact hq

/-- The offset column inverts the map, band by band. -/
theorem offset_of_regAt {p : Params} {off : Nat} {r : Reg} (hal : off % 4 = 0)
    (h : regAt p off = some r) : r.offset = off := by
  obtain ⟨hband, h⟩ | ⟨hband, h⟩ := ite_eq_iff.mp h
  · rw [offset_of_lowRegs h]; omega
  obtain ⟨hband, h⟩ | ⟨hband, h⟩ := ite_eq_iff.mp h
  · cases h
  obtain ⟨hband, h⟩ | ⟨hband, h⟩ := ite_eq_iff.mp h
  · exact offset_of_pairAt (fun _ => rfl) (fun _ => rfl) (by omega) (by omega) h
  obtain ⟨hband, h⟩ | ⟨hband, h⟩ := ite_eq_iff.mp h
  · exact offset_of_pairAt (fun _ => rfl) (fun _ => rfl) (by omega) (by omega) h
  obtain ⟨hband, h⟩ | ⟨hband, h⟩ := ite_eq_iff.mp h
  · exact offset_of_pairAt (fun _ => rfl) (fun _ => rfl) (by omega) (by omega) h
  obtain ⟨hband, h⟩ | ⟨hband, h⟩ := ite_eq_iff.mp h
  · cases h
  obtain ⟨hband, h⟩ | ⟨hband, h⟩ := ite_eq_iff.mp h
  · exact offset_of_pairAt (fun _ => rfl) (fun _ => rfl) (by omega) (by omega) h
  obtain ⟨hband, h⟩ | ⟨hband, h⟩ := ite_eq_iff.mp h
  · cases h
  obtain ⟨hband, h⟩ | ⟨hband, h⟩ := ite_eq_iff.mp h
  · exact offset_of_cellIf (by simp only [Reg.offset]; omega) h
  obtain ⟨hband, h⟩ | ⟨hband, h⟩ := ite_eq_iff.mp h
  · exact offset_of_cellIf (by simp only [Reg.offset]; omega) h
  obtain ⟨hband, h⟩ | ⟨hband, h⟩ := ite_eq_iff.mp h
  · cases h
  obtain ⟨hband, h⟩ | ⟨hband, h⟩ := ite_eq_iff.mp h
  · exact offset_of_cellIf (by simp only [Reg.offset]; omega) h
  obtain ⟨hband, h⟩ | ⟨hband, h⟩ := ite_eq_iff.mp h
  · cases h
  obtain ⟨hband, h⟩ | ⟨hband, h⟩ := ite_eq_iff.mp h
  · exact offset_of_cellIf (by simp only [Reg.offset]; omega) h
  obtain ⟨hband, h⟩ | ⟨hband, h⟩ := ite_eq_iff.mp h
  · exact offset_of_cellIf (by simp only [Reg.offset]; omega) h
  obtain ⟨hband, h⟩ | ⟨hband, h⟩ := ite_eq_iff.mp h
  · exact offset_of_cellIf (by simp only [Reg.offset]; omega) h
  cases h

/-! ### Fields in a word (20_memory.md R75, R88) -/

/-- A field at the bottom of a word, zero extended. -/
theorem setWidth_eq_zero_append (m : Nat) {n : Nat} (x : BitVec n) :
    x.setWidth (m + n) = 0#m ++ x := by
  apply BitVec.eq_of_toNat_eq
  rw [BitVec.toNat_append, BitVec.toNat_ofNat, Nat.zero_mod, Nat.zero_shiftLeft, Nat.zero_or,
    BitVec.toNat_setWidth_of_le (Nat.le_add_left n m)]

/-- Storing the low `n` bits of a word and reading them zero extended masks the word. -/
theorem setWidth_setWidth_eq_and {n : Nat} (hn : n ≤ 32) (v : Word) :
    (v.setWidth n).setWidth 32 = v &&& BitVec.ofNat 32 (2 ^ n - 1) := by
  have hmask : 2 ^ n - 1 < 2 ^ 32 :=
    (Nat.sub_lt (Nat.two_pow_pos n) Nat.one_pos).trans_le (Nat.pow_le_pow_right (by decide) hn)
  apply BitVec.eq_of_toNat_eq
  rw [BitVec.toNat_and, BitVec.toNat_ofNat, Nat.mod_eq_of_lt hmask, Nat.and_two_pow_sub_one_eq_mod,
    BitVec.toNat_setWidth_of_le hn, BitVec.toNat_setWidth]

theorem and_all_ones (v : Word) : v &&& 0xFFFFFFFF = v := BitVec.and_allOnes

/-- `ESTAT` and `IEN` read as their field in bits 8:1. -/
theorem errWord_eq_append (f : BitVec 8) : errWord f = 0#23 ++ f ++ 0#1 := by
  apply BitVec.eq_of_getLsbD_eq
  intro j hj
  simp only [errWord, BitVec.getLsbD_shiftLeft, BitVec.getLsbD_setWidth, BitVec.getLsbD_append,
    BitVec.getLsbD_zero]
  grind

theorem errWord_errField (v : Word) : errWord (errField v) = v &&& 0x000001FE := by
  have hmask : (0x000001FE : Word) = errWord (BitVec.allOnes 8) := by decide
  apply BitVec.eq_of_getLsbD_eq
  intro j hj
  simp only [hmask, errWord, errField, BitVec.getLsbD_and, BitVec.getLsbD_shiftLeft,
    BitVec.getLsbD_setWidth, BitVec.getLsbD_extractLsb', BitVec.getLsbD_allOnes]
  grind

theorem hctlWord_eq_append (s : State) :
    hctlWord s = 0#30 ++ BitVec.ofBool s.bnd ++ BitVec.ofBool s.hvalid := by
  unfold hctlWord
  cases s.bnd <;> cases s.hvalid <;> rfl

theorem hctlWord_of_write (s : State) (v : Word) :
    hctlWord { s with hvalid := v.getLsbD 0, bnd := v.getLsbD 1 } = v &&& 0x00000003 := by
  apply BitVec.eq_of_getLsbD_eq
  intro j hj
  have hmask : (0x00000003 : Word) = (BitVec.allOnes 2).setWidth 32 := by decide
  rw [getLsbD_hctlWord, hmask, BitVec.getLsbD_and, BitVec.getLsbD_setWidth, BitVec.getLsbD_allOnes]
  grind

/-- `STATUS` as the concatenation of its fields (10_state.md R28). -/
theorem statusWord_eq_statusFields (s : State) : statusWord s = statusFields s := by
  apply BitVec.eq_of_getLsbD_eq
  intro j hj
  rw [getLsbD_statusWord]
  simp only [statusFields, State.irq, BitVec.getLsbD_append, BitVec.getLsbD_ofBool,
    BitVec.getLsbD_zero]
  obtain hlow | rfl | rfl | rfl | rfl | rfl | hhigh :
      j < 8 ∨ j = 8 ∨ j = 9 ∨ j = 10 ∨ j = 11 ∨ j = 12 ∨ 12 < j := by omega
  · grind
  · simp
  · simp
  · simp
  · simp
  · simp
  · grind

/-! ### Elements of a register file (10_state.md R41 to R45) -/

theorem cellOr_eq_getElem {α : Type} {n : Nat} (z : α) (f : Vector α n) {i : Nat} (h : i < n) :
    cellOr z f i = f[i] := by
  rw [cellOr, Vector.getElem?_eq_getElem h, Option.getD_some]

theorem cellOr_setIfInBounds_same {α : Type} {n : Nat} (z : α) (f : Vector α n) {i : Nat} (v : α)
    (h : i < n) : cellOr z (f.setIfInBounds i v) i = v := by
  rw [cellOr, Vector.getElem?_setIfInBounds_self, if_pos h, Option.getD_some]

theorem setIfInBounds_eq_set {α : Type} {n : Nat} (f : Vector α n) {i : Nat} (v : α) (h : i < n) :
    f.setIfInBounds i v = f.set i v := by
  ext j hj
  rw [Vector.getElem_setIfInBounds, Vector.getElem_set]

theorem lowHalf_setLowHalf (e : Entry) (v : Word) : lowHalf (setLowHalf e v) = v :=
  BitVec.extractLsb'_append_eq_right

theorem highHalf_setHighHalf (e : Entry) (v : Word) : highHalf (setHighHalf e v) = v :=
  BitVec.extractLsb'_append_eq_left

/-! ### A register read after it was written (20_memory.md R74 to R76) -/

theorem State.readReg_writeReg_same {s : State} {v : Word} {r : Reg} {m : Word}
    (hr : r.listed s.cfg.toParams) (hm : rwBits r = some m) :
    (s.writeReg v r).readReg r = v &&& m := by
  have hbounds := LegalParams.bounds s.cfg
  have hmask {n : Nat} (hn : n ≤ 32) := setWidth_setWidth_eq_and hn v
  cases r with
  | ien => cases hm; exact errWord_errField v
  | hctl => cases hm; exact hctlWord_of_write s v
  | gfa | gfb => cases hm; exact hmask (n := 8) (by decide)
  | slen | imgw | imgh | stride => cases hm; exact hmask (n := 16) (by decide)
  | prows => cases hm; exact hmask (n := 4) (by decide)
  | pbits => cases hm; exact hmask (n := 7) (by decide)
  | ptx | pty | sclk | sofx | sofy => cases hm; exact (and_all_ones v).symm
  | srcx i | srcy i | dstx i | dsty i =>
    cases hm
    exact (cellOr_setIfInBounds_same 0 _ v hr).trans (and_all_ones v).symm
  | hlo k | glo k =>
    cases hm
    rw [and_all_ones]
    exact (congrArg lowHalf (cellOr_setIfInBounds_same 0 _ _ hr)).trans (lowHalf_setLowHalf _ v)
  | hhi k | ghi k =>
    cases hm
    rw [and_all_ones]
    exact (congrArg highHalf (cellOr_setIfInBounds_same 0 _ _ hr)).trans (highHalf_setHighHalf _ v)
  | rxp k =>
    cases hm
    have hk : k < 8 := hr.trans_le (by omega)
    exact (congrArg (BitVec.setWidth 32) (cellOr_setIfInBounds_same 0 _ _ hk)).trans
      (hmask (n := 8) (by decide))
  | sb i =>
    cases hm
    have hcell := (s.sbAt_set i i (v.setWidth 8)).trans (if_pos rfl)
    exact (congrArg (BitVec.setWidth 32) hcell).trans (hmask (n := 8) (by decide))
  | cf k i =>
    cases hm
    obtain ⟨-, hi⟩ := hr
    have hi : i < 256 := by omega
    have hcell := (s.cfAt_set (k := k) hi hi (v.setWidth 8)).trans (if_pos ⟨rfl, rfl⟩)
    exact (congrArg (BitVec.setWidth 32) hcell).trans (hmask (n := 8) (by decide))
  | bv i =>
    cases hm
    have hcell := (s.bvAt_set i i (v.setWidth 1)).trans (if_pos rfl)
    exact (congrArg (BitVec.setWidth 32) hcell).trans (hmask (n := 1) (by decide))
  | _ => cases hm

theorem State.writeReg_of_rwBits_eq_none {s : State} {v : Word} {r : Reg} (hm : rwBits r = none)
    (hr : r ≠ .estat) : s.writeReg v r = s := by
  cases r with
  | estat => exact absurd rfl hr
  | id | version | cap0 | cap1 | cmd | status | ecmd | gfr | rlcnt | rx | ry | pxi | pyi | pidx
  | par | rl => rfl
  | _ => cases hm

/-! ### Offsets of listed registers (20_memory.md R70, R71) -/

theorem offset_mod_four (r : Reg) : r.offset % 4 = 0 := by
  cases r <;> simp only [Reg.offset] <;> omega

theorem offset_lt_windowSize {c : LegalParams} {r : Reg} (h : r.listed c.toParams) :
    r.offset < windowSize := by
  have hbounds := LegalParams.bounds c
  cases r <;> simp only [Reg.offset, Reg.listed, windowSize] at * <;> omega

theorem regAt_eq_none {c : LegalParams} {off : Nat} (hal : off % 4 = 0)
    (h : ∀ r : Reg, r.listed c.toParams → r.offset ≠ off) : regAt c.toParams off = none := by
  cases hreg : regAt c.toParams off with
  | none => rfl
  | some r => exact absurd (offset_of_regAt hal hreg) (h r (regAt_listed hreg))

/-! ### A host's transaction as a step (20_memory.md R71 to R74) -/

theorem State.readReg_pending (s : State) (rest : List HostEvent) (r : Reg) :
    State.readReg { s with pending := rest } r = s.readReg r := by
  cases r <;> rfl

theorem step_of_pending_read {s : State} {off : Nat} {r : Reg} {rest : List HostEvent}
    (hrst : s.rst = false) (hoff : off < windowSize) (hal : off % 4 = 0)
    (hreg : regAt s.cfg.toParams off = some r)
    (h : s.pending = .read (s.cfg.base + off) .four :: rest) :
    step s = .next { s with pending := rest, resp := .data (s.readReg r) } := by
  have hserve := State.transaction_base_add { s with pending := rest } hoff .four fun q =>
    .next { s with pending := rest, resp := .data (State.readReg { s with pending := rest } q) }
  simp only [step, h]
  refine hserve.trans (State.target_eq_next.mpr ⟨hrst, rfl, hal, r, hreg, ?_⟩)
  rw [State.readReg_pending]

/-- A listed register reads its word at its offset. -/
theorem reads_of_listed {s : State} (hrst : s.rst = false) (r : Reg)
    (hr : r.listed s.cfg.toParams) : Reads r.offset s (s.readReg r) := fun _ h =>
  step_of_pending_read hrst (offset_lt_windowSize hr) (offset_mod_four r) (regAt_offset hr) h

/-- A write at the offset of a listed register is the write of that register. -/
theorem writes_of_listed {s : State} (hrst : s.rst = false) (v : Word) (r : Reg)
    (hr : r.listed s.cfg.toParams) (hcmd : r ≠ .cmd) : Writes r.offset s v (s.writeReg v r) :=
  fun _ h => step_of_pending_write hrst (offset_lt_windowSize hr) (offset_mod_four r)
    (regAt_offset hr) hcmd h

/-- R70: the events of the host that are transactions at an address. -/
def HostEvent.At (e : HostEvent) (addr : Nat) (width : Width) : Prop :=
  e = .read addr width ∨ ∃ v, e = .write addr width v

/-- A transaction is served by what its address and width reach, a read or a write alike. -/
theorem step_of_pending_at {s : State} {e : HostEvent} {addr : Nat} {width : Width}
    {rest : List HostEvent} (h : s.pending = e :: rest) (he : e.At addr width) :
    ∃ k, step s = State.transaction { s with pending := rest } addr width k := by
  obtain rfl | ⟨v, rfl⟩ := he
  · exact ⟨_, by simp only [step, h]; rfl⟩
  · exact ⟨_, by simp only [step, h]; rfl⟩

theorem State.target_bad {s : State} {off : Nat} {width : Width} {k : Reg → Result}
    (hrst : s.rst = false) (hbad : width ≠ .four ∨ off % 4 ≠ 0) :
    s.target off width k = .fault .badTransaction := by
  rw [State.target, hrst, if_neg Bool.false_ne_true, if_pos hbad]

theorem State.target_unmapped {s : State} {off : Nat} {k : Reg → Result}
    (hrst : s.rst = false) (hal : off % 4 = 0) (hreg : regAt s.cfg.toParams off = none) :
    s.target off .four k = .fault .unmappedOffset := by
  rw [State.target, hrst, if_neg Bool.false_ne_true, if_neg (by simp [hal]), hreg]

/-! ### The fields a write stores (20_memory.md R75, R79) -/

theorem setIfInBounds_setLowHalf (f : Vector Entry 9) {k : Nat} (hk : k < 9) (v : Word) :
    f.setIfInBounds k (setLowHalf (cellOr 0 f k) v) = f.set k (high f[k] ++ v) := by
  rw [setIfInBounds_eq_set f _ hk, cellOr_eq_getElem 0 f hk]
  rfl

theorem setIfInBounds_setHighHalf (f : Vector Entry 9) {k : Nat} (hk : k < 9) (v : Word) :
    f.setIfInBounds k (setHighHalf (cellOr 0 f k) v) = f.set k (v ++ low f[k]) := by
  rw [setIfInBounds_eq_set f _ hk, cellOr_eq_getElem 0 f hk]
  rfl

theorem State.rxpAt_set (s : State) {k : Nat} (hk : k < 8) (v : Byte) (j : Nat) :
    State.rxpAt { s with rxp := s.rxp.setIfInBounds k v } j = if j = k then v else s.rxpAt j := by
  split
  · subst j
    exact cellOr_setIfInBounds_same 0 s.rxp v hk
  · next hj => exact cellOr_setIfInBounds_of_ne 0 s.rxp v (Ne.symm hj)

end Sys2Proof.Machine

namespace Sys2Proof.Proofs

open Sys2Proof.Machine Sys2Proof.Claims

/-- Settles O49: the map and the offset column invert each other. -/
theorem addressMapIsTheTable : Obligations.AddressMapIsTheTable := by
  unfold Obligations.AddressMapIsTheTable
  intro c r
  have hbase := LegalParams.base_aligned c
  have hal := offset_mod_four r
  exact ⟨fun hr => ⟨regAt_offset hr, hal, by omega, offset_lt_windowSize hr⟩,
    fun off hoff hreg => ⟨regAt_listed hreg, offset_of_regAt hoff hreg⟩⟩

/-- Settles O50: inside the window the map leads to the register, outside there is no target. -/
theorem hostTransactionsReachTheListedRegisters :
    Obligations.HostTransactionsReachTheListedRegisters := by
  unfold Obligations.HostTransactionsReachTheListedRegisters
  refine ⟨fun s r rest hrst hr => ⟨reads_of_listed hrst r hr rest, fun v hcmd =>
    writes_of_listed hrst v r hr hcmd rest⟩, fun s e addr width rest hp he haddr => ?_⟩
  obtain ⟨k, hstep⟩ := step_of_pending_at hp he
  exact hstep.trans (State.transaction_outside { s with pending := rest } haddr width k)

/-- Settles O51: what a register reads after a write of it, for each kind of register. -/
theorem writtenRegistersReadBack : Obligations.WrittenRegistersReadBack := by
  unfold Obligations.WrittenRegistersReadBack
  exact fun s v r hr => ⟨fun m hm => State.readReg_writeReg_same hr hm,
    fun hm hestat _ => State.writeReg_of_rwBits_eq_none hm hestat,
    errWord_and_not_errField s.estat v, rfl⟩

/-- Settles O53: the access is tested first, then the map. -/
theorem badTransactionsAreBusErrors : Obligations.BadTransactionsAreBusErrors := by
  unfold Obligations.BadTransactionsAreBusErrors
  intro s e off width rest hrst hp hoff he
  obtain ⟨k, hstep⟩ := step_of_pending_at hp he
  rw [State.transaction_base_add { s with pending := rest } hoff] at hstep
  refine ⟨fun hbad => hstep.trans (State.target_bad hrst hbad), fun hwidth hal hlist => ?_⟩
  subst hwidth
  exact hstep.trans (State.target_unmapped hrst hal (regAt_eq_none hal hlist))

/-- Settles O58: a command but SRST writes result fields only, and these are none of them. -/
theorem commandsKeepTheHostsRegisters : Obligations.CommandsKeepTheHostsRegisters := by
  unfold Obligations.CommandsKeepTheHostsRegisters
  intro s t i h hi
  rw [exec_eq_withResultsOf h hi]
  exact ⟨rfl, rfl, rfl, rfl, rfl, rfl, rfl, rfl, rfl, rfl, rfl, rfl, rfl, rfl, rfl, rfl, rfl, rfl,
    rfl, rfl⟩

/-- Settles O59: each offset of the table is that of a listed register, whose word is the field. -/
theorem registersReadTheirFields : Obligations.RegistersReadTheirFields := by
  unfold Obligations.RegistersReadTheirFields
  intro s hrst
  have reads (r : Reg) (hr : r.listed s.cfg.toParams) {w : Word} (hw : s.readReg r = w) :
      Reads r.offset s w := hw ▸ reads_of_listed hrst r hr
  have scalar (r : Reg) (hr : r.listed s.cfg.toParams) := reads_of_listed hrst r hr
  refine ⟨scalar .id ⟨⟩, scalar .version ⟨⟩, reads .cap0 ⟨⟩ (cap0Word_eq_ofNat _),
    reads .cap1 ⟨⟩ (cap1Word_eq_ofNat _), scalar .cmd ⟨⟩,
    reads .status ⟨⟩ (statusWord_eq_statusFields s), reads .estat ⟨⟩ (errWord_eq_append _),
    reads .ien ⟨⟩ (errWord_eq_append _), scalar .ecmd ⟨⟩,
    reads .gfa ⟨⟩ (setWidth_eq_zero_append 24 _), reads .gfb ⟨⟩ (setWidth_eq_zero_append 24 _),
    reads .gfr ⟨⟩ (setWidth_eq_zero_append 24 _), reads .slen ⟨⟩ (setWidth_eq_zero_append 16 _),
    reads .prows ⟨⟩ (setWidth_eq_zero_append 28 _), reads .pbits ⟨⟩ (setWidth_eq_zero_append 25 _),
    reads .rlcnt ⟨⟩ (setWidth_eq_zero_append 19 _), reads .hctl ⟨⟩ (hctlWord_eq_append s),
    scalar .ptx ⟨⟩, scalar .pty ⟨⟩, scalar .rx ⟨⟩, scalar .ry ⟨⟩, scalar .sclk ⟨⟩,
    scalar .sofx ⟨⟩, scalar .sofy ⟨⟩, reads .imgw ⟨⟩ (setWidth_eq_zero_append 16 _),
    reads .imgh ⟨⟩ (setWidth_eq_zero_append 16 _), reads .stride ⟨⟩ (setWidth_eq_zero_append 16 _),
    scalar .pxi ⟨⟩, scalar .pyi ⟨⟩, scalar .pidx ⟨⟩, fun i hi => ?_, fun k hk => ?_,
    fun k hk => ?_, fun i hi => ?_, fun k hk i hi => ?_, fun i hi => ?_, fun j hj => ?_⟩
  · have cell (f : Vector Word 4) := cellOr_eq_getElem 0 f hi
    exact ⟨reads (.srcx i) hi (cell _), reads (.srcy i) hi (cell _), reads (.dstx i) hi (cell _),
      reads (.dsty i) hi (cell _)⟩
  · have hh := cellOr_eq_getElem 0 s.h hk
    have hg := cellOr_eq_getElem 0 s.g hk
    exact ⟨reads (.hlo k) hk (congrArg low hh), reads (.hhi k) hk (congrArg high hh),
      reads (.glo k) hk (congrArg low hg), reads (.ghi k) hk (congrArg high hg)⟩
  · exact ⟨reads (.par k) hk (setWidth_eq_zero_append 24 _),
      reads (.rxp k) hk (setWidth_eq_zero_append 24 _)⟩
  · exact reads (.sb i) hi (setWidth_eq_zero_append 24 _)
  · exact reads (.cf k i) ⟨hk, hi⟩ (setWidth_eq_zero_append 24 _)
  · exact reads (.bv i) hi (setWidth_eq_zero_append 31 _)
  · exact scalar (.rl j) hj

/-- Settles O60: each offset of the table is that of a listed register, and `writeReg` stores the
bits of the word in the field of that register. -/
theorem registerWritesReachTheirFields : Obligations.RegisterWritesReachTheirFields := by
  unfold Obligations.RegisterWritesReachTheirFields
  intro s v hrst
  have hbounds := LegalParams.bounds s.cfg
  have write (r : Reg) (hr : r.listed s.cfg.toParams) (hcmd : r ≠ .cmd := by decide) :=
    writes_of_listed hrst v r hr hcmd
  have element (r : Reg) (hr : r.listed s.cfg.toParams) (hcmd : r ≠ .cmd) {t : State}
      (ht : s.writeReg v r = t) : Writes r.offset s v t := ht ▸ writes_of_listed hrst v r hr hcmd
  have field {n : Nat} (hn : n ≤ 32) : v.extractLsb' 0 n = v.setWidth n :=
    (BitVec.setWidth_eq_extractLsb' hn).symm
  rw [field (n := 8) (by decide), field (n := 16) (by decide), field (n := 4) (by decide),
    field (n := 7) (by decide), field (n := 1) (by decide)]
  refine ⟨?_, write .estat ⟨⟩, write .ien ⟨⟩, write .gfa ⟨⟩, write .gfb ⟨⟩, write .slen ⟨⟩,
    write .prows ⟨⟩, write .pbits ⟨⟩, write .hctl ⟨⟩, write .ptx ⟨⟩, write .pty ⟨⟩,
    write .sclk ⟨⟩, write .sofx ⟨⟩, write .sofy ⟨⟩, write .imgw ⟨⟩, write .imgh ⟨⟩,
    write .stride ⟨⟩, fun i hi => ?_, fun k hk => ?_, fun k hk => ⟨?_, ?_⟩, fun i hi => ?_,
    fun k hk i hi => ?_, fun i hi => ?_, fun j hj => ?_⟩
  · simp only [List.forall_mem_cons]
    exact ⟨write .id ⟨⟩, write .version ⟨⟩, write .cap0 ⟨⟩, write .cap1 ⟨⟩, write .status ⟨⟩,
      write .ecmd ⟨⟩, write .gfr ⟨⟩, write .rlcnt ⟨⟩, write .rx ⟨⟩, write .ry ⟨⟩, write .pxi ⟨⟩,
      write .pyi ⟨⟩, write .pidx ⟨⟩, fun _ h => nomatch h⟩
  · have cell (f : Vector Word 4) := setIfInBounds_eq_set f v hi
    exact ⟨element (.srcx i) hi nofun (congrArg (fun f => { s with srcx := f }) (cell _)),
      element (.srcy i) hi nofun (congrArg (fun f => { s with srcy := f }) (cell _)),
      element (.dstx i) hi nofun (congrArg (fun f => { s with dstx := f }) (cell _)),
      element (.dsty i) hi nofun (congrArg (fun f => { s with dsty := f }) (cell _))⟩
  · have lower (f : Vector Entry 9) := setIfInBounds_setLowHalf f hk v
    have upper (f : Vector Entry 9) := setIfInBounds_setHighHalf f hk v
    exact ⟨element (.hlo k) hk nofun (congrArg (fun f => { s with h := f }) (lower _)),
      element (.hhi k) hk nofun (congrArg (fun f => { s with h := f }) (upper _)),
      element (.glo k) hk nofun (congrArg (fun f => { s with g := f }) (lower _)),
      element (.ghi k) hk nofun (congrArg (fun f => { s with g := f }) (upper _))⟩
  · exact write (.par k) hk nofun
  · exact ⟨_, write (.rxp k) hk nofun, s.rxpAt_set (by omega) _⟩
  · exact ⟨_, write (.sb i) hi nofun, fun j => s.sbAt_set i j _⟩
  · exact ⟨_, write (.cf k i) ⟨hk, hi⟩ nofun, fun r j hj => s.cfAt_set (by omega) hj _⟩
  · exact ⟨_, write (.bv i) hi nofun, fun j => s.bvAt_set i j _⟩
  · exact write (.rl j) hj nofun

end Sys2Proof.Proofs

/-! ## Proofs: the buffers and the invariant (20_memory.md R80, R81)

What a command writes before it ends, what it leaves of the buffers, and that every event served
keeps the invariant. -/

namespace Sys2Proof.Machine

/-! ### What the units compute stays in range -/

theorem State.length_bits (s : State) (n : Nat) : (s.bits n).length = n := by simp [State.bits]

theorem length_packBytes_bits (s : State) (n : Nat) :
    (packBytes (s.bits n)).length = bytesFor n := by
  rw [packBytes, List.length_map, List.length_range, State.length_bits]

theorem length_unpackBits (bytes : Nat → Byte) (n : Nat) : (unpackBits bytes n).length = n := by
  simp [unpackBits]

/-- A run has at least one bit (41_bitvector.md R144). -/
theorem length_runsFrom_le (b : Bit) (offset count : Nat) (seq : List Bit) :
    (runsFrom b offset count seq).length ≤ seq.length + 1 := by
  induction seq generalizing b offset count with
  | nil => simp [runsFrom]
  | cons c seq ih =>
    unfold runsFrom
    split
    · exact (ih ..).trans (by simp)
    · exact Nat.succ_le_succ (ih ..)

theorem length_runsOf_le (seq : List Bit) : (runsOf seq).length ≤ seq.length := by
  cases seq with
  | nil => simp [runsOf]
  | cons b seq => exact length_runsFrom_le b 0 1 seq

theorem length_runWords_le (s : State) (n : Nat) :
    ((runsOf (s.bits n)).map runWord).length ≤ n := by
  rw [List.length_map]
  exact (length_runsOf_le _).trans_eq (s.length_bits n)

theorem pointInRange_idem {p q : RawPoint} (h : pointInRange p = some q) :
    pointInRange q = some q := by
  obtain ⟨rfl, -⟩ := (pointInRange_eq_some p q).mp h
  exact h

theorem projectiveMap_inRange {t : Vector Entry 9} {p q : RawPoint}
    (h : projectiveMap t p = some q) : pointInRange q = some q := by
  obtain ⟨-, hpoint⟩ := Option.ite_none_left_eq_some.mp h
  exact pointInRange_idem hpoint

theorem boundedPoint_eq_some {bnd : Bool} {p q : RawPoint} (h : boundedPoint bnd p = some q) :
    q = p := by
  unfold boundedPoint at h
  split at h <;> cases h
  rfl

theorem bind_inRange {o : Option RawPoint} {f : RawPoint → Option RawPoint}
    (hf : ∀ p q, f p = some q → pointInRange q = some q) :
    ∀ q, o.bind f = some q → pointInRange q = some q := by
  intro q hq
  obtain ⟨p, -, hp⟩ := Option.bind_eq_some_iff.mp hq
  exact hf p q hp

/-- 44_scaler.md R199: an index inside the image is below 0xFFFFFFFF, for every stride. -/
theorem ofInt_pixelIndex_ne_noIndex {s : State} {px py : Int} (h : s.insideImage px py = true) :
    BitVec.ofInt 32 (py * s.stride.toNat + px) ≠ noIndex := by
  simp only [State.insideImage, Bool.and_eq_true, decide_eq_true_eq] at h
  have hw := s.imgw.isLt
  have hh := s.imgh.isLt
  have hstride := s.stride.isLt
  have hrow : py * s.stride.toNat ≤ 65534 * 65535 :=
    Int.mul_le_mul (by omega) (by omega) (by omega) (by omega)
  have hrow0 : 0 ≤ py * s.stride.toNat := Int.mul_nonneg (by omega) (by omega)
  generalize py * (s.stride.toNat : Int) = row at hrow hrow0 ⊢
  intro heq
  have hnat := congrArg BitVec.toNat heq
  rw [BitVec.toNat_ofInt, Int.emod_eq_of_lt (by omega) (by omega)] at hnat
  have hno : noIndex.toNat = 0xFFFFFFFF := by decide
  omega

/-! ### What a command writes before it ends (20_memory.md R81) -/

/-- What a command may have written into `s` when it ends, with or without an error: one result, of
the unit it runs. A buffer names the command that writes it; of the other results only what bounds
them is kept. -/
inductive CommandEffect (s : State) : Instr → State → Prop
  /-- NOP, and a command that raises before it writes. -/
  | nothing (i : Instr) : CommandEffect s i s
  /-- 40_gf256.md R126 to R129. -/
  | fieldResult (i : Instr) (g : Byte) : CommandEffect s i { s with gfr := g }
  /-- 41_bitvector.md R142. -/
  | bytes (n : Nat) (hn : bytesFor n ≤ s.cfg.sbMax) :
    CommandEffect s (.pack n) { s with sb := Memory.setFrom s.sb 0 (packBytes (s.bits n)) }
  /-- 41_bitvector.md R143. -/
  | bits (n : Nat) (hn : n ≤ s.cfg.bvMax) :
    CommandEffect s (.unpack n) { s with bv := Memory.setFrom s.bv 0 (unpackBits s.sbAt n) }
  /-- 41_bitvector.md R144. -/
  | runs (n : Nat) (hn : n ≤ s.cfg.bvMax) :
    CommandEffect s (.rle n) { s with
      rl := Memory.setFrom s.rl 0 ((runsOf (s.bits n)).map runWord)
      rlcnt := BitVec.ofNat 13 (runsOf (s.bits n)).length }
  /-- 42_parity.md R158, R159. -/
  | parity (i : Instr) (b : Bool) (hrange : ¬s.parityOutOfRange) :
    CommandEffect s i { s.setParity with pmatch := b }
  /-- 43_homography.md R180. -/
  | matrices (i : Instr) (h g : Vector Entry 9) (b : Bool) :
    CommandEffect s i { s with h := h, g := g, hvalid := b }
  /-- 43_homography.md R172. -/
  | point (i : Instr) (q : Option RawPoint) (hq : ∀ p, q = some p → pointInRange p = some p) :
    CommandEffect s i (s.setPoint q)
  /-- 44_scaler.md R199. -/
  | pixel (i : Instr) (x y idx : Word) (b : Bool) (hidx : b = true ↔ idx = noIndex) :
    CommandEffect s i { s with pxi := x, pyi := y, pidx := idx, oob := b }

/-- A command has its effect, then it ends without error or with one (60_exceptions.md R223,
R224). -/
def CommandEnds (s : State) (i : Instr) (t : State) : Prop :=
  ∃ u, CommandEffect s i u ∧ (t = u.done ∨ ∃ c w, t = u.raise c w)

theorem CommandEffect.ends_done {s u : State} {i : Instr} (h : CommandEffect s i u) :
    CommandEnds s i u.done := ⟨u, h, .inl rfl⟩

theorem CommandEffect.ends_raise {s u : State} {i : Instr} (h : CommandEffect s i u) (c : ErrCode)
    (w : Word) : CommandEnds s i (u.raise c w) := ⟨u, h, .inr ⟨c, w, rfl⟩⟩

/-- Every command but SRST, which resets the registers, has one of the effects above. -/
theorem exec_ends {i : Instr} {s t : State} (h : exec i s = .next t) (hi : i ≠ .srst) :
    CommandEnds s i t := by
  cases i with
  | srst => exact absurd rfl hi
  | nop => cases h; exact (CommandEffect.nothing _).ends_done
  | gfmul | gfexp => cases h; exact (CommandEffect.fieldResult _ _).ends_done
  | gfdiv | gflog =>
    simp only [exec, execGfdiv, execGflog] at h
    split at h <;> cases h
    · exact (CommandEffect.nothing _).ends_raise _ _
    · exact (CommandEffect.fieldResult _ _).ends_done
  | pack n =>
    simp only [exec, execPack] at h
    split at h <;> cases h
    · exact (CommandEffect.nothing _).ends_raise _ _
    · exact (CommandEffect.bytes n (by omega)).ends_done
  | unpack n =>
    simp only [exec, execUnpack] at h
    split at h <;> cases h
    · exact (CommandEffect.nothing _).ends_raise _ _
    · exact (CommandEffect.bits n (by omega)).ends_done
  | rle n =>
    simp only [exec, execRle] at h
    split at h <;> cases h
    · exact (CommandEffect.nothing _).ends_raise _ _
    · exact (CommandEffect.runs n (by omega)).ends_done
  | pargen =>
    simp only [exec, execPargen] at h
    split at h <;> cases h
    · exact (CommandEffect.nothing _).ends_raise _ _
    · next hrange => exact (CommandEffect.parity _ s.pmatch hrange).ends_done
  | parchk =>
    simp only [exec, execParchk] at h
    split_ifs at h with hrange <;> cases h
    · exact (CommandEffect.nothing _).ends_raise _ _
    · exact (CommandEffect.parity _ true (not_or.mp hrange).1).ends_done
    · exact (CommandEffect.parity _ false (not_or.mp hrange).1).ends_raise _ _
  | hsolve =>
    simp only [exec, execHsolve] at h
    split at h <;> cases h
    · exact (CommandEffect.matrices _ s.h s.g false).ends_raise _ _
    · exact (CommandEffect.matrices _ s.h s.g false).ends_raise _ _
    · exact (CommandEffect.matrices _ _ _ true).ends_done
  | hmap p =>
    simp only [exec, execHmap] at h
    split at h <;> cases h
    · exact (CommandEffect.point _ _ (bind_inRange fun _ _ => projectiveMap_inRange)).ends_done
    · exact (CommandEffect.nothing _).ends_raise _ _
  | himap p =>
    simp only [exec, execHimap] at h
    split at h <;> cases h
    · refine (CommandEffect.point _ _ fun q hq => ?_).ends_done
      obtain ⟨q', hmapped, hbounded⟩ := Option.bind_eq_some_iff.mp hq
      rw [boundedPoint_eq_some hbounded]
      exact bind_inRange (fun _ _ => projectiveMap_inRange) q' hmapped
    · exact (CommandEffect.nothing _).ends_raise _ _
  | scale p =>
    cases h
    exact (CommandEffect.point _ _ (bind_inRange fun _ _ => pointInRange_idem)).ends_done
  | nint p =>
    simp only [exec, execNint] at h
    split at h <;> cases h
    · exact (CommandEffect.pixel _ _ _ _ _ (by simp)).ends_done
    · refine (CommandEffect.pixel _ _ _ _ _ ?_).ends_done
      split
      · next hin => simpa [hin] using ofInt_pixelIndex_ne_noIndex hin
      · next hin => simp [hin]

section Effect

variable {s u : State} {i : Instr}

/-! ### What a command leaves of the buffers (20_memory.md R80, R81) -/

theorem CommandEffect.cf_eq (h : CommandEffect s i u) : u.cf = s.cf := by
  cases h with
  | point _ q => exact s.setPoint_cf q
  | _ => rfl

theorem CommandEffect.sb_eq (h : CommandEffect s i u) (hi : ∀ n, i ≠ .pack n) : u.sb = s.sb := by
  cases h with
  | bytes n => exact absurd rfl (hi n)
  | point _ q => exact s.setPoint_sb q
  | _ => rfl

theorem CommandEffect.bv_eq (h : CommandEffect s i u) (hi : ∀ n, i ≠ .unpack n) : u.bv = s.bv := by
  cases h with
  | bits n => exact absurd rfl (hi n)
  | point _ q => exact s.setPoint_bv q
  | _ => rfl

theorem CommandEffect.rl_eq (h : CommandEffect s i u) (hi : ∀ n, i ≠ .rle n) : u.rl = s.rl := by
  cases h with
  | runs n => exact absurd rfl (hi n)
  | point _ q => exact s.setPoint_rl q
  | _ => rfl

theorem CommandEffect.sbAt_eq (h : CommandEffect s i u) {j : Nat} (hj : s.cfg.sbMax ≤ j) :
    u.sbAt j = s.sbAt j := by
  cases h with
  | bytes n hn =>
    have hlen := length_packBytes_bits s n
    rw [State.sbAt_setFrom, if_neg (by omega)]
  | point _ q => rw [State.sbAt, State.setPoint_sb, State.setPoint_resetCount, State.sbAt]
  | _ => rfl

theorem CommandEffect.bvAt_eq (h : CommandEffect s i u) {j : Nat} (hj : s.cfg.bvMax ≤ j) :
    u.bvAt j = s.bvAt j := by
  cases h with
  | bits n hn =>
    have hlen := length_unpackBits s.sbAt n
    rw [State.bvAt_setFrom, if_neg (by omega)]
  | point _ q => rw [State.bvAt, State.setPoint_bv, State.setPoint_resetCount, State.bvAt]
  | _ => rfl

theorem CommandEffect.rlAt_eq (h : CommandEffect s i u) {j : Nat} (hj : s.cfg.bvMax ≤ j) :
    u.rlAt j = s.rlAt j := by
  cases h with
  | runs n hn =>
    have hlen := length_runWords_le s n
    exact (s.rlAt_setFrom 0 _ j).trans (if_neg (by omega))
  | point _ q => rw [State.rlAt, State.setPoint_rl, State.setPoint_resetCount, State.rlAt]
  | _ => rfl

end Effect

/-! ### The cells a write lists (20_memory.md R80) -/

theorem Memory.forall_mem_setFrom {w n : Nat} {m : Memory w} {vs : List (BitVec w)}
    (hm : ∀ c ∈ m, c.1 < n) (hvs : vs.length ≤ n) : ∀ c ∈ Memory.setFrom m 0 vs, c.1 < n := by
  intro c hc
  obtain ⟨-, hlt⟩ | hc := Memory.mem_setFrom hc
  · omega
  · exact hm c hc

theorem Memory.forall_mem_set {w : Nat} {m : Memory w} {P : Nat → Prop} {a : Nat} {v : BitVec w}
    (hm : ∀ c ∈ m, P c.1) (ha : P a) : ∀ c ∈ Memory.set m a v, P c.1 := by
  intro c hc
  obtain rfl | hc := Memory.mem_set hc
  · exact ha
  · exact hm c hc

/-! ### The invariant of a block that serves the host -/

/-- The invariant of a block whose reset input is released, field by field: there the clause on the
held reset says nothing. -/
structure State.Serving (s : State) : Prop extends s.BuffersOk, s.PointOk where
  released : s.rst = false
  pixel : s.PixelOk
  lastErr : s.lastErr.toNat ≤ 8
  rlcnt : s.rlcnt.toNat ≤ s.cfg.bvMax
  par : ∀ k, s.cfg.kMax ≤ k → s.parAt k = 0
  rxp : ∀ k, s.cfg.kMax ≤ k → s.rxpAt k = 0

theorem State.Serving.inv {s : State} (h : s.Serving) : s.Inv where
  buffers := h.toBuffersOk
  point := h.toPointOk
  pixel := h.pixel
  lastErr := h.lastErr
  rlcnt := h.rlcnt
  par := h.par
  rxp := h.rxp
  held hrst := absurd hrst (by rw [h.released]; decide)

theorem State.Inv.serving {s : State} (h : s.Inv) (hrst : s.rst = false) : s.Serving :=
  { h.buffers, h.point, h with released := hrst }

section Serving

variable {s : State}

theorem State.Serving.done (h : s.Serving) : s.done.Serving :=
  { h with lastErr := by simp }

theorem errNumber_le (c : ErrCode) : errNumber c ≤ 8 := by cases c <;> decide

theorem State.Serving.raise (h : s.Serving) (c : ErrCode) (w : Word) : (s.raise c w).Serving :=
  have hc := errNumber_le c
  { h with lastErr := by rw [State.raise_lastErr, BitVec.toNat_ofNat]; omega }

theorem State.Serving.setPoint (h : s.Serving) {q : Option RawPoint}
    (hq : ∀ p, q = some p → pointInRange p = some p) : (s.setPoint q).Serving := by
  have hpoint := s.setPoint_pointOk q hq
  cases q <;> exact { hpoint, h with }

theorem State.Serving.setParity (h : s.Serving) (hrange : ¬s.parityOutOfRange) (b : Bool) :
    State.Serving { s.setParity with pmatch := b } :=
  have hbounds := LegalParams.bounds s.cfg
  have hlen : s.parityBytes.length = s.prows.toNat := by simp [State.parityBytes]
  have hrows : s.prows.toNat ≤ s.cfg.kMax := by
    simp only [State.parityOutOfRange] at hrange
    omega
  { h with
    par := fun k (hk : s.cfg.kMax ≤ k) =>
      (cellOr_setCells 0 s.par 0 s.parityBytes (by omega) k).trans
        ((if_neg (by omega)).trans (h.par k hk)) }

theorem State.Serving.effect {i : Instr} {u : State} (h : s.Serving)
    (he : CommandEffect s i u) : u.Serving := by
  cases he with
  | nothing => exact h
  | fieldResult | matrices => exact { h with }
  | bytes n hn =>
    exact { h with
      sb_wf := Memory.setFrom_wf h.sb_wf 0 _
      sb_exists := Memory.forall_mem_setFrom h.sb_exists ((length_packBytes_bits s n).trans_le hn) }
  | bits n hn =>
    exact { h with
      bv_wf := Memory.setFrom_wf h.bv_wf 0 _
      bv_exists := Memory.forall_mem_setFrom h.bv_exists ((length_unpackBits _ n).trans_le hn) }
  | runs n hn =>
    have hlen := length_runWords_le s n
    exact { h with
      rl_wf := Memory.setFrom_wf h.rl_wf 0 _
      rl_exists := Memory.forall_mem_setFrom h.rl_exists (hlen.trans hn)
      rlcnt := by
        rw [BitVec.toNat_ofNat, ← List.length_map runWord]
        exact (Nat.mod_le _ _).trans (hlen.trans hn) }
  | parity _ b hrange => exact h.setParity hrange b
  | point _ q hq => exact h.setPoint hq
  | pixel _ x y idx b hidx => exact { h with pixel := hidx }

theorem State.Serving.resetRegisters (h : s.Serving) : s.resetRegisters.Serving :=
  { State.reset_inv.point, h with
    pixel := State.reset_inv.pixel
    lastErr := State.reset_inv.lastErr
    rlcnt := Nat.zero_le _
    par := fun k _ => cellOr_replicate 8 0 k
    rxp := fun k _ => cellOr_replicate 8 0 k }

theorem State.Serving.exec {i : Instr} {t : State} (hs : s.Serving) (h : exec i s = .next t) :
    t.Serving := by
  by_cases hi : i = .srst
  · subst hi
    cases h
    exact hs.resetRegisters
  · obtain ⟨u, he, rfl | ⟨c, w, rfl⟩⟩ := exec_ends h hi
    · exact (hs.effect he).done
    · exact (hs.effect he).raise c w

theorem State.Serving.command {w : Word} {t : State} (hs : s.Serving)
    (h : s.command Machine.exec w = .next t) : t.Serving := by
  obtain ⟨i, -, hi⟩ | ⟨-, rfl⟩ := State.command_eq_next.mp h
  · exact hs.exec hi
  · exact hs.raise _ _

/-- A host write changes operands, which the invariant says nothing about, or one cell that
exists. -/
theorem State.Serving.writeReg {v : Word} {r : Reg} (h : s.Serving)
    (hr : r.listed s.cfg.toParams) : (s.writeReg v r).Serving := by
  have hbounds := LegalParams.bounds s.cfg
  cases r with
  | rxp k =>
    exact { h with
      rxp := fun j hj =>
        have hne : k ≠ j := (hr.trans_le hj).ne
        (cellOr_setIfInBounds_of_ne 0 s.rxp _ hne).trans (h.rxp j hj) }
  | sb i =>
    exact { h with
      sb_wf := Memory.set_wf h.sb_wf i _
      sb_exists := Memory.forall_mem_set (P := (· < s.cfg.sbMax)) h.sb_exists hr }
  | bv i =>
    exact { h with
      bv_wf := Memory.set_wf h.bv_wf i _
      bv_exists := Memory.forall_mem_set (P := (· < s.cfg.bvMax)) h.bv_exists hr }
  | cf k i =>
    obtain ⟨hk, hi⟩ := hr
    have hcell : cfIndex k i / 256 < s.cfg.kMax ∧ cfIndex k i % 256 < s.cfg.sbMax := by
      simp only [cfIndex]
      omega
    exact { h with
      cf_wf := Memory.set_wf h.cf_wf _ _
      cf_exists := Memory.forall_mem_set
        (P := fun a => a / 256 < s.cfg.kMax ∧ a % 256 < s.cfg.sbMax) h.cf_exists hcell }
  | _ => exact { h with }

end Serving

/-! ### The invariant over a step -/

/-- The host's list and the response are no part of the invariant. -/
theorem State.Inv.withBus {s : State} (h : s.Inv) (rest : List HostEvent) (r : Response) :
    State.Inv { s with pending := rest, resp := r } where
  buffers := { h.buffers with }
  point := { h.point with }
  pixel := h.pixel
  lastErr := h.lastErr
  rlcnt := h.rlcnt
  par := h.par
  rxp := h.rxp
  held hrst := congrArg (fun u => { u with pending := rest, resp := r }) (h.held hrst)

/-- 70_reset_and_hazards.md R250: the reset empties the buffers and leaves the registers at their
reset values, which is what the invariant asks of a held block. -/
theorem State.hardReset_inv (s : State) :
    State.Inv { s.hardReset with rst := true, resp := .none } where
  buffers :=
    { sb_wf := .nil, cf_wf := .nil, bv_wf := .nil, rl_wf := .nil
      sb_exists := nofun, cf_exists := nofun, bv_exists := nofun, rl_exists := nofun }
  point := { State.reset_inv.point with }
  pixel := State.reset_inv.pixel
  lastErr := State.reset_inv.lastErr
  rlcnt := Nat.zero_le _
  par k _ := cellOr_replicate 8 0 k
  rxp k _ := cellOr_replicate 8 0 k
  held _ := rfl

theorem State.Inv.release {s : State} (h : s.Inv) :
    State.Inv { s with rst := false, resp := .none } :=
  State.Serving.inv { h.buffers, h.point, h with released := rfl }

theorem serve_inv {s t : State} {e : HostEvent} (hs : s.Inv) (h : serve exec s e = .next t) :
    t.Inv := by
  obtain ⟨-, rfl⟩ | ⟨-, rfl⟩ | ⟨_, _, -, -, rfl⟩ | ⟨-, _, _, -, -, -, rfl⟩ |
    ⟨hrst, _, v, u, -, -, rfl, hu⟩ := serve_cases h
  case inl => exact s.hardReset_inv
  case inr.inl => exact hs.release
  case inr.inr.inl | inr.inr.inr.inl => exact hs.withBus s.pending _
  case inr.inr.inr.inr =>
    have hserving := hs.serving hrst
    obtain ⟨-, hcmd⟩ | ⟨r, -, hreg, rfl⟩ := hu
    · exact (hserving.command hcmd).inv.withBus u.pending _
    · exact (hserving.writeReg (regAt_listed hreg)).inv.withBus (s.writeReg v r).pending _

theorem step_inv {s t : State} (hs : s.Inv) (h : step s = .next t) : t.Inv := by
  obtain ⟨-, rfl⟩ | ⟨e, rest, -, hserve⟩ := step_cases h
  · exact hs
  · exact serve_inv (hs.withBus rest s.resp) hserve

end Sys2Proof.Machine

namespace Sys2Proof.Proofs

open Sys2Proof.Machine

/-- Settles O55: a step that serves a command or a write keeps the invariant of a serving block; the
other events touch no register, or reset all of them. -/
theorem everyStepKeepsTheInvariant : Obligations.EveryStepKeepsTheInvariant := by
  unfold Obligations.EveryStepKeepsTheInvariant
  intro s t hs h
  exact step_inv hs h

/-- Settles O56: by the one effect a command has; SRST does not touch the buffers. -/
theorem commandsWriteOnlyTheirBuffer : Obligations.CommandsWriteOnlyTheirBuffer := by
  unfold Obligations.CommandsWriteOnlyTheirBuffer
  intro s t i h
  by_cases hi : i = .srst
  · subst hi
    cases h
    exact ⟨rfl, fun _ => rfl, fun _ => rfl, fun _ => rfl, fun _ _ => rfl, fun _ _ => ⟨rfl, rfl⟩⟩
  · obtain ⟨u, he, rfl | ⟨c, w, rfl⟩⟩ := exec_ends h hi
    all_goals
      exact ⟨he.cf_eq, he.sb_eq, he.bv_eq, he.rl_eq, fun _ hj => he.sbAt_eq hj,
        fun _ hj => ⟨he.bvAt_eq hj, he.rlAt_eq hj⟩⟩

end Sys2Proof.Proofs

/-! ## Proofs: the command encoding (30_encoding.md R100 to R108)

A command word is its opcode beside its operand field, and the operand field is reserved zeros beside
the operand. The reading of each format as an equation between fields, the decoder read both ways,
the rows of the command table, and the step that runs a command word. -/

namespace Sys2Proof

open Sys2Proof.Claims

/-! ### Words cut into fields (30_encoding.md R101 to R104) -/

/-- Two fields make up a word exactly when they stand in its high and its low bits. -/
theorem append_eq_iff {v w : Nat} {a : BitVec v} {b : BitVec w} {x : BitVec (v + w)} :
    a ++ b = x ↔ x.extractLsb' w v = a ∧ x.extractLsb' 0 w = b := by
  constructor
  · rintro rfl
    exact ⟨BitVec.extractLsb'_append_eq_left, BitVec.extractLsb'_append_eq_right⟩
  · rintro ⟨rfl, rfl⟩
    exact BitVec.extractLsb'_append_extractLsb'

/-- Words with the same cut are equal field by field. -/
theorem append_inj {v w : Nat} {a a' : BitVec v} {b b' : BitVec w} :
    a ++ b = a' ++ b' ↔ a = a' ∧ b = b' := by
  rw [append_eq_iff, BitVec.extractLsb'_append_eq_left, BitVec.extractLsb'_append_eq_right,
    eq_comm, @eq_comm _ b']

/-- Bits 23:0 of a command word. -/
def operandOf (w : Word) : BitVec 24 := w.extractLsb' 0 24

theorem encode_eq_iff {w : Word} {i : Instr} :
    encode i = w ↔ opcodeOf w = opcode i ∧ operandOf w = operandBits i :=
  append_eq_iff

theorem opcodeOf_append_operandOf (w : Word) : opcodeOf w ++ operandOf w = w :=
  BitVec.extractLsb'_append_extractLsb'

/-- Format N: the operand field is eight reserved bits beside the count. -/
theorem operandOf_eq_append_count (w : Word) :
    operandOf w = w.extractLsb' 16 8 ++ w.extractLsb' 0 16 :=
  (BitVec.extractLsb'_append_extractLsb'_eq_extractLsb' (len₁ := 16) (start₁ := 0) rfl).symm

/-- Format S: the operand field is 23 reserved bits beside the selection. -/
theorem operandOf_eq_append_sel (w : Word) :
    operandOf w = w.extractLsb' 1 23 ++ w.extractLsb' 0 1 :=
  (BitVec.extractLsb'_append_extractLsb'_eq_extractLsb' (len₁ := 1) (start₁ := 0) rfl).symm

/-- R103, R107: the field of the count `n` is the one with reserved zeros that holds `n`. -/
theorem operandOf_eq_countBits {w : Word} {n : Nat} :
    operandOf w = (BitVec.ofNat 16 n).setWidth 24 ∧ n < 2 ^ 16 ↔
      w.extractLsb' 16 8 = 0 ∧ (w.extractLsb' 0 16).toNat = n := by
  rw [operandOf_eq_append_count, Machine.setWidth_eq_zero_append 8, append_inj, and_assoc]
  refine and_congr_right fun _ => ⟨fun ⟨hbits, hn⟩ => ?_, ?_⟩
  · rw [hbits, BitVec.toNat_ofNat, Nat.mod_eq_of_lt hn]
  · rintro rfl
    exact ⟨by rw [BitVec.ofNat_toNat, BitVec.setWidth_eq], BitVec.isLt _⟩

theorem pointSelOf_eq_iff {w : Word} {p : PointSel} :
    pointSelOf w = p ↔ w.extractLsb' 0 1 = BitVec.ofBool (p = .r) := by
  have hbit : w.extractLsb' 0 1 = BitVec.ofBool (w.getLsbD 0) := by
    ext j hj
    simp [Nat.lt_one_iff.mp hj]
  rw [hbit, pointSelOf]
  cases w.getLsbD 0 <;> cases p <;> decide

/-- R104, R107: the field of the selection `p` is the one with reserved zeros that selects `p`. -/
theorem operandOf_eq_selBits {w : Word} {p : PointSel} :
    operandOf w = p.bits ↔ w.extractLsb' 1 23 = 0 ∧ pointSelOf w = p := by
  have hbits : p.bits = 0#23 ++ BitVec.ofBool (p = .r) := by cases p <;> rfl
  rw [operandOf_eq_append_sel, hbits, append_inj, pointSelOf_eq_iff]
  rfl

/-! ### The decoder, read both ways (30_encoding.md R102 to R108) -/

theorem decodeZ_eq_ok {w : Word} {i j : Instr} :
    decodeZ w i = .ok j ↔ operandOf w = 0 ∧ i = j := by
  unfold decodeZ
  split <;> simp_all [operandOf]

theorem decodeN_eq_ok {w : Word} {f : Nat → Instr} {j : Instr} :
    decodeN w f = .ok j ↔
      ∃ n, (operandOf w = (BitVec.ofNat 16 n).setWidth 24 ∧ n < 2 ^ 16) ∧ f n = j := by
  simp only [operandOf_eq_countBits]
  unfold decodeN
  split <;> simp_all

theorem decodeS_eq_ok {w : Word} {f : PointSel → Instr} {j : Instr} :
    decodeS w f = .ok j ↔ ∃ p, operandOf w = p.bits ∧ f p = j := by
  simp only [operandOf_eq_selBits]
  unfold decodeS
  split <;> simp_all

/-- R105, R108: a word decodes to a command exactly when it has the command's opcode and operand
field, and the operand fits the field. -/
theorem decode_eq_ok_iff {w : Word} {i : Instr} :
    decode w = .ok i ↔ opcodeOf w = opcode i ∧ operandOf w = operandBits i ∧ i.wf = true := by
  constructor
  · intro h
    unfold decode at h
    split at h
    -- the arms of format Z
    case h_1 hop | h_2 hop | h_3 hop | h_4 hop | h_5 hop | h_9 hop | h_10 hop | h_11 hop |
        h_16 hop =>
      obtain ⟨hz, rfl⟩ := decodeZ_eq_ok.mp h
      exact ⟨BitVec.eq_of_toNat_eq hop, hz, rfl⟩
    -- the arms of format N
    case h_6 hop | h_7 hop | h_8 hop =>
      obtain ⟨n, ⟨hcount, hn⟩, rfl⟩ := decodeN_eq_ok.mp h
      exact ⟨BitVec.eq_of_toNat_eq hop, hcount, decide_eq_true hn⟩
    -- the arms of format S
    case h_12 hop | h_13 hop | h_14 hop | h_15 hop =>
      obtain ⟨p, hsel, rfl⟩ := decodeS_eq_ok.mp h
      exact ⟨BitVec.eq_of_toNat_eq hop, hsel, rfl⟩
    -- no opcode of the table
    case h_17 => cases h
  · rintro ⟨hop, hfield, hwf⟩
    unfold decode
    rw [hop]
    cases i with
    | nop | gfmul | gfdiv | gfexp | gflog | pargen | parchk | hsolve | srst =>
      exact decodeZ_eq_ok.mpr ⟨hfield, rfl⟩
    | pack n | unpack n | rle n =>
      exact decodeN_eq_ok.mpr ⟨n, ⟨hfield, of_decide_eq_true hwf⟩, rfl⟩
    | hmap p | himap p | scale p | nint p =>
      exact decodeS_eq_ok.mpr ⟨p, hfield, rfl⟩

/-- R108: decoding and encoding invert each other on the well-formed commands. -/
theorem decode_eq_ok_iff_encode {w : Word} {i : Instr} :
    decode w = .ok i ↔ encode i = w ∧ i.wf = true := by
  rw [decode_eq_ok_iff, encode_eq_iff, and_assoc]

/-! ### The rows of the command table (30_encoding.md R105) -/

/-- A mask of R105 drops the operand, and compares the opcode and the reserved field. -/
theorem fields_and_mask_eq_iff {r k : Nat} {op op' : Byte} {reserved : BitVec r}
    {operand : BitVec k} :
    (op' ++ (reserved ++ operand)) &&& (BitVec.allOnes 8 ++ (BitVec.allOnes r ++ 0#k)) =
      op ++ (0#r ++ 0#k) ↔ op' = op ∧ reserved = 0#r := by
  rw [BitVec.and_append, BitVec.and_append, append_inj, append_inj, BitVec.and_allOnes,
    BitVec.and_allOnes, BitVec.and_zero, eq_self, and_true]

/-- The commands `f n` are those of format N with opcode `op` (R103). -/
structure CountFormat (op : Byte) (f : Nat → Instr) : Prop where
  opcode_eq : ∀ n, opcode (f n) = op
  operandBits_eq : ∀ n, operandBits (f n) = (BitVec.ofNat 16 n).setWidth 24
  wf_eq : ∀ n, (f n).wf = decide (n < 2 ^ 16)

/-- The commands `f p` are those of format S with opcode `op` (R104). -/
structure SelFormat (op : Byte) (f : PointSel → Instr) : Prop where
  opcode_eq : ∀ p, opcode (f p) = op
  operandBits_eq : ∀ p, operandBits (f p) = p.bits
  wf_eq : ∀ p, (f p).wf = true

/-! The opcode and format columns of the rows with an operand. -/

theorem CountFormat.pack : CountFormat 0x10 .pack := ⟨fun _ => rfl, fun _ => rfl, fun _ => rfl⟩
theorem CountFormat.unpack : CountFormat 0x11 .unpack := ⟨fun _ => rfl, fun _ => rfl, fun _ => rfl⟩
theorem CountFormat.rle : CountFormat 0x12 .rle := ⟨fun _ => rfl, fun _ => rfl, fun _ => rfl⟩

theorem SelFormat.hmap : SelFormat 0x31 .hmap := ⟨fun _ => rfl, fun _ => rfl, fun _ => rfl⟩
theorem SelFormat.himap : SelFormat 0x32 .himap := ⟨fun _ => rfl, fun _ => rfl, fun _ => rfl⟩
theorem SelFormat.scale : SelFormat 0x40 .scale := ⟨fun _ => rfl, fun _ => rfl, fun _ => rfl⟩
theorem SelFormat.nint : SelFormat 0x41 .nint := ⟨fun _ => rfl, fun _ => rfl, fun _ => rfl⟩

/-- Format Z: the mask keeps the whole word. -/
theorem decode_eq_ok_iff_row {w : Word} {i : Instr} (hfield : operandBits i = 0)
    (hwf : i.wf = true) : decode w = .ok i ↔ w &&& 0xFFFFFFFF = opcode i ++ 0#24 := by
  rw [decode_eq_ok_iff_encode, Machine.and_all_ones, encode, hfield, eq_comm]
  exact and_iff_left hwf

/-- Format N: the mask drops the 16 bits of the count. -/
theorem CountFormat.decode_iff_row {op : Byte} {f : Nat → Instr} (hf : CountFormat op f)
    (w : Word) : (∃ n, decode w = .ok (f n)) ↔ w &&& 0xFFFF0000 = op ++ 0#24 :=
  calc (∃ n, decode w = .ok (f n))
    _ ↔ ∃ n, opcodeOf w = op ∧ w.extractLsb' 16 8 = 0 ∧ (w.extractLsb' 0 16).toNat = n := by
      simp only [decode_eq_ok_iff, hf.opcode_eq, hf.operandBits_eq, hf.wf_eq, decide_eq_true_eq,
        operandOf_eq_countBits]
    _ ↔ opcodeOf w = op ∧ w.extractLsb' 16 8 = 0 := by simp
    _ ↔ (opcodeOf w ++ (w.extractLsb' 16 8 ++ w.extractLsb' 0 16)) &&& 0xFFFF0000 = op ++ 0#24 :=
      fields_and_mask_eq_iff.symm
    _ ↔ w &&& 0xFFFF0000 = op ++ 0#24 := by
      rw [← operandOf_eq_append_count, opcodeOf_append_operandOf]

/-- Format S: the mask drops the bit of the selection. -/
theorem SelFormat.decode_iff_row {op : Byte} {f : PointSel → Instr} (hf : SelFormat op f)
    (w : Word) : (∃ p, decode w = .ok (f p)) ↔ w &&& 0xFFFFFFFE = op ++ 0#24 :=
  calc (∃ p, decode w = .ok (f p))
    _ ↔ ∃ p, opcodeOf w = op ∧ w.extractLsb' 1 23 = 0 ∧ pointSelOf w = p := by
      simp only [decode_eq_ok_iff, hf.opcode_eq, hf.operandBits_eq, hf.wf_eq, and_true,
        operandOf_eq_selBits]
    _ ↔ opcodeOf w = op ∧ w.extractLsb' 1 23 = 0 := by simp
    _ ↔ (opcodeOf w ++ (w.extractLsb' 1 23 ++ w.extractLsb' 0 1)) &&& 0xFFFFFFFE = op ++ 0#24 :=
      fields_and_mask_eq_iff.symm
    _ ↔ w &&& 0xFFFFFFFE = op ++ 0#24 := by
      rw [← operandOf_eq_append_sel, opcodeOf_append_operandOf]

/-- The `mask` column of the command table. -/
def Instr.mask : Instr → Word
  | .pack _ | .unpack _ | .rle _ => 0xFFFF0000
  | .hmap _ | .himap _ | .scale _ | .nint _ => 0xFFFFFFFE
  | _ => 0xFFFFFFFF

theorem row_mem_commandTable (i : Instr) : (opcode i ++ 0#24, i.mask) ∈ commandTable := by
  cases i <;> simp only [opcode, Instr.mask] <;> decide

/-- R105: a word that decodes to a command matches the command's row. -/
theorem and_mask_of_decode {w : Word} {i : Instr} (h : decode w = .ok i) :
    w &&& i.mask = opcode i ++ 0#24 := by
  cases i with
  | nop | gfmul | gfdiv | gfexp | gflog | pargen | parchk | hsolve | srst =>
    exact (decode_eq_ok_iff_row rfl rfl).mp h
  | pack n => exact (CountFormat.pack.decode_iff_row w).mp ⟨n, h⟩
  | unpack n => exact (CountFormat.unpack.decode_iff_row w).mp ⟨n, h⟩
  | rle n => exact (CountFormat.rle.decode_iff_row w).mp ⟨n, h⟩
  | hmap p => exact (SelFormat.hmap.decode_iff_row w).mp ⟨p, h⟩
  | himap p => exact (SelFormat.himap.decode_iff_row w).mp ⟨p, h⟩
  | scale p => exact (SelFormat.scale.decode_iff_row w).mp ⟨p, h⟩
  | nint p => exact (SelFormat.nint.decode_iff_row w).mp ⟨p, h⟩

end Sys2Proof

namespace Sys2Proof.Machine

open Sys2Proof.Claims

/-! ### A command word as a step (30_encoding.md R100, R106; 20_memory.md R89) -/

theorem State.command_of_decode {run : Instr → State → Result} {w : Word} {i : Instr}
    (h : decode w = .ok i) (s : State) : s.command run w = run i s := by
  rw [State.command, h]

theorem State.command_of_no_row {run : Instr → State → Result} {w : Word}
    (h : ∀ row ∈ commandTable, w &&& row.2 ≠ row.1) (s : State) :
    s.command run w = .next (withError s 1 w) := by
  cases hdec : decode w with
  | ok i =>
    exact absurd (and_mask_of_decode hdec) (h _ (row_mem_commandTable i))
  | error e =>
    rw [State.command, hdec]
    rfl

/-- An aligned word access at a listed offset reaches the register there (20_memory.md R71). -/
theorem State.target_of_regAt {s : State} {off : Nat} {r : Reg} (hrst : s.rst = false)
    (hal : off % 4 = 0) (hreg : regAt s.cfg.toParams off = some r) (k : Reg → Result) :
    s.target off .four k = k r := by
  rw [State.target, hrst, if_neg Bool.false_ne_true, if_neg (by simp [hal]), hreg]

/-- Serving a write of `CMD` runs the command word and completes the write. -/
theorem serve_commandWrite {run : Instr → State → Result} {s : State} (hrst : s.rst = false)
    (w : Word) :
    serve run s (commandWrite s.cfg.toParams w) = respond .written (s.command run w) :=
  (s.transaction_base_add (off := cmdOffset) (by decide) .four _).trans
    (State.target_of_regAt (r := .cmd) hrst rfl rfl _)

theorem step_of_pending_commandWrite {s : State} {w : Word} {rest : List HostEvent}
    (hrst : s.rst = false) (h : s.pending = commandWrite s.cfg.toParams w :: rest) :
    step s = respond .written (State.command exec { s with pending := rest } w) := by
  simp only [step, h]
  exact serve_commandWrite (s := { s with pending := rest }) hrst w

end Sys2Proof.Machine

namespace Sys2Proof.Proofs

open Sys2Proof.Machine Sys2Proof.Claims

/-- Settles O1: the encoding of a well-formed command has that command's fields. -/
theorem decodeOfEncodeIsTheCommand : Obligations.DecodeOfEncodeIsTheCommand := by
  unfold Obligations.DecodeOfEncodeIsTheCommand
  intro i hwf
  exact decode_eq_ok_iff_encode.mpr ⟨rfl, hwf⟩

/-- Settles O2: a word that decodes has the opcode and the operand field of its command. -/
theorem encodeOfDecodeIsTheWord : Obligations.EncodeOfDecodeIsTheWord := by
  unfold Obligations.EncodeOfDecodeIsTheWord
  intro w i h
  exact decode_eq_ok_iff_encode.mp h

/-- Settles O3: row by row, by the command's format. -/
theorem commandTableMatchAndMask : Obligations.CommandTableMatchAndMask := by
  unfold Obligations.CommandTableMatchAndMask
  intro w
  have rowZ {i : Instr} := decode_eq_ok_iff_row (w := w) (i := i)
  exact ⟨rowZ rfl rfl, rowZ rfl rfl, rowZ rfl rfl, rowZ rfl rfl, rowZ rfl rfl,
    CountFormat.pack.decode_iff_row w, CountFormat.unpack.decode_iff_row w,
    CountFormat.rle.decode_iff_row w, rowZ rfl rfl, rowZ rfl rfl, rowZ rfl rfl,
    SelFormat.hmap.decode_iff_row w, SelFormat.himap.decode_iff_row w,
    SelFormat.scale.decode_iff_row w, SelFormat.nint.decode_iff_row w, rowZ rfl rfl⟩

/-- Settles O6: a word without a row does not decode, and the step completes the write with the
error. -/
theorem illegalWordChangesOnlyErrorRegisters :
    Obligations.IllegalWordChangesOnlyErrorRegisters := by
  unfold Obligations.IllegalWordChangesOnlyErrorRegisters
  intro s w rest hrst hp hrows
  rw [step_of_pending_commandWrite hrst hp, State.command_of_no_row hrows]
  rfl

/-- Settles O4: each word is evaluated by the decoder. -/
theorem writtenOutWordsDecode : Obligations.WrittenOutWordsDecode := by
  unfold Obligations.WrittenOutWordsDecode
  exact ⟨rfl, rfl, rfl, rfl, rfl, rfl, rfl, rfl, rfl⟩

/-- Settles O5: the write reaches `CMD`, and running the word is running the command it decodes
to. -/
theorem stepRunsTheDecodedCommand : Obligations.StepRunsTheDecodedCommand := by
  unfold Obligations.StepRunsTheDecodedCommand
  intro s w i rest hrst hp hdec
  rw [step_of_pending_commandWrite hrst hp, State.command_of_decode hdec]

end Sys2Proof.Proofs

/-! ## Proofs: the arithmetic and the commands of GF(256) (40_gf256.md R120 to R130)

Multiplication by α is linear over exclusive or, so multiplying by α^i is applying it i times. When
the order of α is 255 its powers are all the non-zero bytes, and the laws of the product become laws
of exponents. -/

namespace Sys2Proof.Machine

open Function
open Sys2Proof.Claims

/-! ### Multiplication by α (40_gf256.md R121) -/

theorem xtime_eq_ite (p : Poly) (v : Byte) :
    xtime p v = if v.getLsbD 7 then (v <<< 1) ^^^ p.setWidth 8 else v <<< 1 := by
  have htop : (v.setWidth 9 <<< 1).getLsbD 8 = v.getLsbD 7 := by simp
  have hlow : (v.setWidth 9 <<< 1).setWidth 8 = v <<< 1 := by ext; simp
  simp only [xtime, htop]
  split
  · rw [BitVec.setWidth_xor, hlow]
  · exact hlow

theorem xtime_zero (p : Poly) : xtime p 0 = 0 := rfl

/-- Where bit 7 is clear nothing is reduced. -/
theorem xtime_of_getLsbD_eq_false (p : Poly) {v : Byte} (hv : v.getLsbD 7 = false) :
    xtime p v = v <<< 1 := by
  rw [xtime_eq_ite, hv, if_neg Bool.false_ne_true]

/-- A term that a coefficient selects is linear in the coefficient. -/
theorem ite_xor_zero {w : Nat} (x y : Bool) (v : BitVec w) :
    (if x ^^ y then v else 0) = (if x then v else 0) ^^^ (if y then v else 0) := by
  cases x <;> cases y <;> simp

theorem xtime_eq_xor (p : Poly) (v : Byte) :
    xtime p v = (v <<< 1) ^^^ if v.getLsbD 7 then p.setWidth 8 else 0 := by
  rw [xtime_eq_ite]
  split
  · rfl
  · exact BitVec.xor_zero.symm

/-- Multiplication by α is linear over the sum of R120. -/
theorem xtime_xor (p : Poly) (v w : Byte) : xtime p (v ^^^ w) = xtime p v ^^^ xtime p w := by
  simp only [xtime_eq_xor, BitVec.getLsbD_xor, BitVec.shiftLeft_xor_distrib, ite_xor_zero]
  ac_rfl

/-! ### The powers of α (40_gf256.md R122) -/

theorem alphaPow_succ (p : Poly) (i : Nat) : alphaPow p (i + 1) = xtime p (alphaPow p i) := rfl

theorem alphaPow_eq_iterate (p : Poly) (i : Nat) : alphaPow p i = (xtime p)^[i] 0x01 := by
  induction i with
  | zero => rfl
  | succ i ih => rw [alphaPow_succ, ih, iterate_succ_apply']

theorem iterate_xtime_alphaPow (p : Poly) (i j : Nat) :
    (xtime p)^[i] (alphaPow p j) = alphaPow p (i + j) := by
  rw [alphaPow_eq_iterate, alphaPow_eq_iterate, iterate_add_apply]

/-- A power that is 0 makes every later one 0. -/
theorem alphaPow_ne_zero_of_le {p : Poly} {i j : Nat} (hij : i ≤ j) (hj : alphaPow p j ≠ 0) :
    alphaPow p i ≠ 0 := by
  intro hi
  rw [← Nat.sub_add_cancel hij, ← iterate_xtime_alphaPow, hi, iterate_fixed (xtime_zero p)] at hj
  exact hj rfl

/-! ### The check on the field polynomial (40_gf256.md R121) -/

theorem firstReturnsAt_alphaPow (p : Poly) (k i : Nat) :
    firstReturnsAt p k (alphaPow p i) = true ↔
      (∀ j < k, alphaPow p (i + j) ≠ 0x01) ∧ alphaPow p (i + k) = 0x01 := by
  induction k generalizing i with
  | zero => simp [firstReturnsAt]
  | succ k ih =>
    rw [firstReturnsAt, Bool.and_eq_true, bne_iff_ne, ← alphaPow_succ, ih, ← and_assoc,
      Nat.forall_lt_succ_left]
    simp only [Nat.add_zero, Nat.succ_add_eq_add_succ]

theorem isGenerator_iff (p : Poly) :
    isGenerator p = true ↔
      (∀ j < 254, alphaPow p (1 + j) ≠ 0x01) ∧ alphaPow p 255 = 0x01 :=
  firstReturnsAt_alphaPow p 254 1

/-- The check of the model asks for the order of α (log 11). -/
theorem isGenerator_iff_minimalPeriod (p : Poly) :
    isGenerator p = true ↔ minimalPeriod (xtime p) 0x01 = 255 := by
  rw [isGenerator_iff]
  simp only [alphaPow_eq_iterate]
  constructor
  · rintro ⟨hne, hret⟩
    have hper : IsPeriodicPt (xtime p) 255 0x01 := hret
    have hpos := hper.minimalPeriod_pos (by decide)
    refine (hper.minimalPeriod_le (by decide)).antisymm (Nat.le_of_not_lt fun hlt => ?_)
    refine hne (minimalPeriod (xtime p) 0x01 - 1) (by omega) ?_
    rw [Nat.add_sub_cancel' hpos]
    exact isPeriodicPt_minimalPeriod _ _
  · intro h
    refine ⟨fun j hj hret => ?_, ?_⟩
    · have := IsPeriodicPt.minimalPeriod_le (Nat.add_pos_left one_pos j) hret
      omega
    · rw [← h]
      exact isPeriodicPt_minimalPeriod _ _

section Generator

variable {p : Poly} (hp : isGenerator p = true)
include hp

theorem alphaPow_255 : alphaPow p 255 = 0x01 := ((isGenerator_iff p).mp hp).2

/-- R122: exponents count modulo 255. -/
theorem alphaPow_mod_255 (e : Nat) : alphaPow p (e % 255) = alphaPow p e := by
  rw [alphaPow_eq_iterate, alphaPow_eq_iterate, ← (isGenerator_iff_minimalPeriod p).mp hp,
    iterate_mod_minimalPeriod_eq]

theorem alphaPow_ne_zero (e : Nat) : alphaPow p e ≠ 0 := by
  rw [← alphaPow_mod_255 hp]
  refine alphaPow_ne_zero_of_le (Nat.mod_lt e (by decide)).le ?_
  rw [alphaPow_255 hp]
  decide

theorem alphaPow_inj {i j : Nat} (hi : i < 255) (hj : j < 255) :
    alphaPow p i = alphaPow p j ↔ i = j := by
  rw [alphaPow_eq_iterate, alphaPow_eq_iterate]
  rw [← (isGenerator_iff_minimalPeriod p).mp hp] at hi hj
  exact iterate_eq_iterate_iff_of_lt_minimalPeriod hi hj

/-- There are as many non-zero bytes as exponents, so every one of them is a power. -/
theorem exists_alphaPow_eq {v : Byte} (hv : v ≠ 0) : ∃ i < 255, alphaPow p i = v := by
  have hsurj : Set.SurjOn (alphaPow p) (Finset.range 255) (Finset.univ.erase (0 : Byte)) := by
    refine Finset.surjOn_of_injOn_of_card_le _ ?_ ?_ ?_
    · intro i _
      simpa using alphaPow_ne_zero hp i
    · intro i hi j hj hij
      exact (alphaPow_inj hp (by simpa using hi) (by simpa using hj)).mp hij
    · rw [Finset.card_erase_of_mem (Finset.mem_univ _), Finset.card_range]
      rw [Finset.card_univ, ← FinEnum.card_eq_fintypeCard, FinEnum.card_bitVec]
      exact le_rfl
  obtain ⟨i, hi, hiv⟩ := hsurj (by simpa using hv)
  exact ⟨i, by simpa using hi, hiv⟩

theorem eq_zero_or_alphaPow (v : Byte) : v = 0 ∨ ∃ i < 255, alphaPow p i = v :=
  or_iff_not_imp_left.mpr (exists_alphaPow_eq hp)

end Generator

theorem isGenerator_iff_powers (p : Poly) :
    isGenerator p = true ↔
      (∀ i < 255, alphaPow p i ≠ 0) ∧
      (∀ i j, i < j → j < 255 → alphaPow p i ≠ alphaPow p j) ∧
      alphaPow p 255 = 0x01 := by
  constructor
  · intro hp
    refine ⟨fun i _ => alphaPow_ne_zero hp i, fun i j hij hj h => ?_, alphaPow_255 hp⟩
    exact hij.ne ((alphaPow_inj hp (hij.trans hj) hj).mp h)
  · rintro ⟨-, hne, hret⟩
    exact (isGenerator_iff p).mpr ⟨fun j hj => (hne 0 (1 + j) (by omega) (by omega)).symm, hret⟩

/-! ### The logarithm (40_gf256.md R123) -/

/-- The search stops at an exponent of `v` when there is one among those it tries. -/
theorem logFrom_alphaPow {p : Poly} {v : Byte} {fuel i : Nat}
    (h : ∃ j < fuel, alphaPow p (i + j) = v) :
    logFrom p v fuel i (alphaPow p i) < i + fuel ∧
      alphaPow p (logFrom p v fuel i (alphaPow p i)) = v := by
  induction fuel generalizing i with
  | zero => simp at h
  | succ fuel ih =>
    rw [logFrom]
    split
    case isTrue heq => exact ⟨by omega, heq⟩
    case isFalse hne =>
      rw [Nat.exists_lt_succ_left] at h
      obtain ⟨j, hj, hjv⟩ := h.resolve_left hne
      have hnext := ih (i := i + 1) ⟨j, hj, by rwa [Nat.add_right_comm]⟩
      rwa [Nat.add_right_comm] at hnext

section Generator

variable {p : Poly} (hp : isGenerator p = true)
include hp

theorem gfLog_spec {v : Byte} (hv : v ≠ 0) : gfLog p v < 255 ∧ alphaPow p (gfLog p v) = v := by
  obtain ⟨i, hi, hiv⟩ := exists_alphaPow_eq hp hv
  have h := logFrom_alphaPow (p := p) (v := v) (i := 0) ⟨i, hi, by rwa [Nat.zero_add]⟩
  rwa [Nat.zero_add] at h

theorem gfLog_lt {v : Byte} (hv : v ≠ 0) : gfLog p v < 255 := (gfLog_spec hp hv).1

theorem alphaPow_gfLog {v : Byte} (hv : v ≠ 0) : alphaPow p (gfLog p v) = v := (gfLog_spec hp hv).2

theorem gfLog_alphaPow {i : Nat} (hi : i < 255) : gfLog p (alphaPow p i) = i := by
  obtain ⟨hlt, heq⟩ := gfLog_spec hp (alphaPow_ne_zero hp i)
  exact (alphaPow_inj hp hlt hi).mp heq

end Generator

/-! ### The product (40_gf256.md R120, R124) -/

theorem mulTerms_xtime (p : Poly) (k : Nat) (a b : Byte) :
    mulTerms p k (xtime p a) b = xtime p (mulTerms p k a b) := by
  induction k generalizing a b with
  | zero => exact (xtime_zero p).symm
  | succ k ih =>
    rw [mulTerms, mulTerms, ih, xtime_xor, apply_ite (xtime p), xtime_zero]

theorem mulTerms_xor (p : Poly) (k : Nat) (a b c : Byte) :
    mulTerms p k a (b ^^^ c) = mulTerms p k a b ^^^ mulTerms p k a c := by
  induction k generalizing a b c with
  | zero => exact BitVec.xor_zero.symm
  | succ k ih =>
    simp only [mulTerms, BitVec.ushiftRight_xor_distrib, ih, BitVec.getLsbD_xor, ite_xor_zero]
    ac_rfl

/-- A byte is its lowest bit and the rest. -/
theorem bit_zero_xor_rest (b : Byte) :
    (if b.getLsbD 0 then (0x01 : Byte) else 0) ^^^ ((b >>> 1) <<< 1) = b := by
  revert b
  decide

/-- As many terms as `b` has bits add up to `b`: over 1 none of them is reduced. -/
theorem mulTerms_one_left (p : Poly) {k : Nat} {b : Byte} (hb : b >>> k = 0) :
    mulTerms p k 0x01 b = b := by
  induction k generalizing b with
  | zero => exact hb.symm
  | succ k ih =>
    have hrest : mulTerms p k 0x01 (b >>> 1) = b >>> 1 :=
      ih (by rwa [← BitVec.shiftRight_add, Nat.add_comm])
    have htop : (b >>> 1).getLsbD 7 = false := by simp
    rw [mulTerms, mulTerms_xtime, hrest, xtime_of_getLsbD_eq_false p htop, bit_zero_xor_rest]

theorem gfMul_one_left (p : Poly) (b : Byte) : gfMul p 0x01 b = b :=
  mulTerms_one_left p (BitVec.ushiftRight_eq_zero le_rfl)

/-- R130: the product distributes over the sum. -/
theorem gfMul_xor (p : Poly) (a b c : Byte) :
    gfMul p a (b ^^^ c) = gfMul p a b ^^^ gfMul p a c :=
  mulTerms_xor p 8 a b c

theorem gfMul_zero_right (p : Poly) (a : Byte) : gfMul p a 0 = 0 := by
  simpa using gfMul_xor p a 0 0

theorem mulTerms_zero_left (p : Poly) (k : Nat) (b : Byte) : mulTerms p k 0 b = 0 := by
  induction k generalizing b with
  | zero => rfl
  | succ k ih =>
    rw [mulTerms, xtime_zero, ih, ite_self]
    rfl

theorem gfMul_zero_left (p : Poly) (b : Byte) : gfMul p 0 b = 0 := mulTerms_zero_left p 8 b

theorem gfMul_iterate_xtime (p : Poly) (i : Nat) (a b : Byte) :
    gfMul p ((xtime p)^[i] a) b = (xtime p)^[i] (gfMul p a b) :=
  have hxtime : Semiconj (gfMul p · b) (xtime p) (xtime p) := fun a => mulTerms_xtime p 8 a b
  hxtime.iterate_right i a

/-- Multiplying by α^i is multiplying by α, `i` times. -/
theorem gfMul_alphaPow_left (p : Poly) (i : Nat) (b : Byte) :
    gfMul p (alphaPow p i) b = (xtime p)^[i] b := by
  rw [alphaPow_eq_iterate, gfMul_iterate_xtime, gfMul_one_left]

/-- The product of powers adds their exponents. -/
theorem gfMul_alphaPow (p : Poly) (i j : Nat) :
    gfMul p (alphaPow p i) (alphaPow p j) = alphaPow p (i + j) := by
  rw [gfMul_alphaPow_left, iterate_xtime_alphaPow]

/-! ### The laws of the product and of the quotient (40_gf256.md R124, R125, R130) -/

theorem gfDiv_zero_left (p : Poly) (b : Byte) : gfDiv p 0 b = 0 := rfl

section Generator

variable {p : Poly} (hp : isGenerator p = true)
include hp

theorem gfMul_eq_tableProduct (a b : Byte) : gfMul p a b = tableProduct p a b := by
  unfold tableProduct
  split
  case isTrue h =>
    obtain rfl | rfl := h
    · exact gfMul_zero_left p b
    · exact gfMul_zero_right p a
  case isFalse h =>
    obtain ⟨ha, hb⟩ := not_or.mp h
    rw [alphaPow_mod_255 hp, ← gfMul_alphaPow, alphaPow_gfLog hp ha, alphaPow_gfLog hp hb]

theorem gfMul_comm (a b : Byte) : gfMul p a b = gfMul p b a := by
  obtain rfl | ⟨i, -, rfl⟩ := eq_zero_or_alphaPow hp a
  · rw [gfMul_zero_left, gfMul_zero_right]
  obtain rfl | ⟨j, -, rfl⟩ := eq_zero_or_alphaPow hp b
  · rw [gfMul_zero_left, gfMul_zero_right]
  · rw [gfMul_alphaPow, gfMul_alphaPow, Nat.add_comm]

theorem gfMul_assoc (a b c : Byte) : gfMul p (gfMul p a b) c = gfMul p a (gfMul p b c) := by
  obtain rfl | ⟨i, -, rfl⟩ := eq_zero_or_alphaPow hp a
  · rw [gfMul_zero_left, gfMul_zero_left, gfMul_zero_left]
  · rw [gfMul_alphaPow_left, gfMul_alphaPow_left, gfMul_iterate_xtime]

theorem gfMul_one_right (a : Byte) : gfMul p a 0x01 = a := by
  rw [gfMul_comm hp, gfMul_one_left]

/-- The product of two powers is a power, which is never 0. -/
theorem eq_zero_or_eq_zero_of_gfMul_eq_zero {a b : Byte} (h : gfMul p a b = 0) :
    a = 0 ∨ b = 0 := by
  obtain rfl | ⟨i, -, rfl⟩ := eq_zero_or_alphaPow hp a
  · exact .inl rfl
  obtain rfl | ⟨j, -, rfl⟩ := eq_zero_or_alphaPow hp b
  · exact .inr rfl
  · rw [gfMul_alphaPow] at h
    exact absurd h (alphaPow_ne_zero hp _)

/-- Two factors with the same product differ by a factor with product 0. -/
theorem gfMul_right_cancel {a a' b : Byte} (hb : b ≠ 0) (h : gfMul p a b = gfMul p a' b) :
    a = a' := by
  have hdiff : gfMul p b (a ^^^ a') = 0 := by
    rw [gfMul_xor, gfMul_comm hp b, gfMul_comm hp b, h]
    exact BitVec.xor_self
  exact BitVec.xor_eq_zero_iff.mp ((eq_zero_or_eq_zero_of_gfMul_eq_zero hp hdiff).resolve_left hb)

/-- The quotient of powers subtracts their exponents, modulo 255. -/
theorem gfDiv_alphaPow {i j : Nat} (hi : i < 255) (hj : j < 255) :
    gfDiv p (alphaPow p i) (alphaPow p j) = alphaPow p (i + 255 - j) := by
  rw [gfDiv, if_neg (alphaPow_ne_zero hp i), gfLog_alphaPow hp hi, gfLog_alphaPow hp hj,
    alphaPow_mod_255 hp]

theorem gfMul_gfDiv (a : Byte) {b : Byte} (hb : b ≠ 0) : gfMul p (gfDiv p a b) b = a := by
  obtain rfl | ⟨i, hi, rfl⟩ := eq_zero_or_alphaPow hp a
  · rw [gfDiv_zero_left, gfMul_zero_left]
  · obtain ⟨j, hj, rfl⟩ := exists_alphaPow_eq hp hb
    rw [gfDiv_alphaPow hp hi hj, gfMul_alphaPow, Nat.sub_add_cancel (by omega),
      ← alphaPow_mod_255 hp, Nat.add_mod_right, alphaPow_mod_255 hp]

theorem gfMul_eq_iff_eq_gfDiv (q a : Byte) {b : Byte} (hb : b ≠ 0) :
    gfMul p q b = a ↔ q = gfDiv p a b := by
  constructor
  · intro h
    exact gfMul_right_cancel hp hb (h.trans (gfMul_gfDiv hp a hb).symm)
  · rintro rfl
    exact gfMul_gfDiv hp a hb

/-- R125 subtracts in the integers; the model adds 255 first and subtracts in the naturals. -/
theorem gfDiv_eq_tableQuotient (a : Byte) {b : Byte} (hb : b ≠ 0) :
    gfDiv p a b = tableQuotient p a b := by
  unfold gfDiv tableQuotient
  split
  · rfl
  · have hlog := gfLog_lt hp hb
    congr 1
    omega

end Generator

/-! ### Command words of format Z (30_encoding.md R102, R106) -/

/-- Where the table gives an opcode to the format Z command `i`, its words follow the format. -/
theorem formatZ_of_decode {op : Byte} {i : Instr}
    (h : ∀ w, opcodeOf w = op → decode w = decodeZ w i) : FormatZ op i := by
  intro w s hop
  split
  case isTrue hz =>
    exact State.command_of_decode ((h w hop).trans (decodeZ_eq_ok.mpr ⟨hz, rfl⟩)) s
  case isFalse hnz =>
    rw [State.command, h w hop, decodeZ, if_neg hnz]
    rfl

/-! ### The commands (40_gf256.md R126 to R129) -/

theorem exec_gfmul (s : State) :
    exec .gfmul s = .next { s with gfr := gfMul s.cfg.gfPoly s.gfa s.gfb, lastErr := 0 } := rfl

theorem exec_gfdiv_of_zero {s : State} (h : s.gfb = 0) :
    exec .gfdiv s = .next (withError s 3 0x02000000) :=
  if_pos h

theorem exec_gfdiv_of_ne_zero {s : State} (h : s.gfb ≠ 0) :
    exec .gfdiv s = .next { s with gfr := gfDiv s.cfg.gfPoly s.gfa s.gfb, lastErr := 0 } :=
  if_neg h

theorem exec_gfexp (s : State) :
    exec .gfexp s =
      .next { s with gfr := alphaPow s.cfg.gfPoly (s.gfa.toNat % 255), lastErr := 0 } := rfl

theorem exec_gflog_of_zero {s : State} (h : s.gfa = 0) :
    exec .gflog s = .next (withError s 4 0x04000000) :=
  if_pos h

theorem exec_gflog_of_ne_zero {s : State} (h : s.gfa ≠ 0) :
    exec .gflog s =
      .next { s with gfr := BitVec.ofNat 8 (gfLog s.cfg.gfPoly s.gfa), lastErr := 0 } :=
  if_neg h

end Sys2Proof.Machine

namespace Sys2Proof.Proofs

open Sys2Proof.Machine Sys2Proof.Claims

/-- Settles O20: the check asks for the order 255 of α, and an orbit of that length has no
repetition and never meets 0. -/
theorem legalPolynomialsMakeAlphaAGenerator :
    Obligations.LegalPolynomialsMakeAlphaAGenerator := by
  unfold Obligations.LegalPolynomialsMakeAlphaAGenerator
  exact ⟨xtime_eq_ite, isGenerator_iff_powers, fun q hq => LegalParams.generates ⟨q, hq⟩,
    LegalParams.generates .default⟩

/-- Settles O21: the search finds an exponent, and exponents below 255 have different powers. -/
theorem logIsTheUniqueExponent : Obligations.LogIsTheUniqueExponent := by
  unfold Obligations.LogIsTheUniqueExponent
  intro c v hv
  refine ⟨gfLog_lt (LegalParams.generates c) hv, alphaPow_gfLog (LegalParams.generates c) hv, ?_⟩
  rintro i hi rfl
  exact (gfLog_alphaPow (LegalParams.generates c) hi).symm

/-- Settles O22: the reduced product of two powers of α adds their exponents. -/
theorem productByTablesIsThePolynomialProduct :
    Obligations.ProductByTablesIsThePolynomialProduct := by
  unfold Obligations.ProductByTablesIsThePolynomialProduct
  intro c a b
  exact gfMul_eq_tableProduct (LegalParams.generates c) a b

/-- Settles O23: the quotient by exponents solves the equation, and a non-zero factor cancels. -/
theorem quotientIsTheUniqueInverseOfTheProduct :
    Obligations.QuotientIsTheUniqueInverseOfTheProduct := by
  unfold Obligations.QuotientIsTheUniqueInverseOfTheProduct
  intro c a b hb
  exact ⟨gfDiv_eq_tableQuotient (LegalParams.generates c) a hb,
    fun q => gfMul_eq_iff_eq_gfDiv (LegalParams.generates c) q a hb⟩

/-- Settles O24: the laws of the product, and the division laws by the uniqueness of the quotient. -/
theorem fieldLaws : Obligations.FieldLaws := by
  unfold Obligations.FieldLaws
  intro p a b c
  have hp := LegalParams.generates p
  refine ⟨gfMul_comm hp a b, gfMul_assoc hp a b c, gfMul_xor _ a b c, gfMul_one_right hp a,
    gfMul_zero_right _ a, eq_zero_or_eq_zero_of_gfMul_eq_zero hp, fun hb => ⟨?_, ?_⟩, fun ha => ?_⟩
  · exact ((gfMul_eq_iff_eq_gfDiv hp a _ hb).mp rfl).symm
  · exact gfMul_gfDiv hp a hb
  · exact ((gfMul_eq_iff_eq_gfDiv hp 0x01 a ha).mp (gfMul_one_left _ a)).symm

/-- Settles O25: the product that the command computes is the product by the tables. -/
theorem gfmulMultiplies : Obligations.GfmulMultiplies := by
  unfold Obligations.GfmulMultiplies
  refine ⟨formatZ_of_decode fun w hop => by rw [decode, hop]; rfl, fun s => ?_⟩
  rw [exec_gfmul, gfMul_eq_tableProduct (LegalParams.generates s.cfg)]

/-- Settles O26: by whether the divisor is 0. -/
theorem gfdivDividesOrRaises : Obligations.GfdivDividesOrRaises := by
  unfold Obligations.GfdivDividesOrRaises
  refine ⟨formatZ_of_decode fun w hop => by rw [decode, hop]; rfl,
    fun s => ⟨exec_gfdiv_of_zero, fun hb => ?_⟩⟩
  rw [exec_gfdiv_of_ne_zero hb, gfDiv_eq_tableQuotient (LegalParams.generates s.cfg) s.gfa hb]

/-- Settles O27: exponents count modulo 255. -/
theorem gfexpLooksUpTheExponent : Obligations.GfexpLooksUpTheExponent := by
  unfold Obligations.GfexpLooksUpTheExponent
  refine ⟨formatZ_of_decode fun w hop => by rw [decode, hop]; rfl, fun s => ⟨exec_gfexp s, ?_⟩⟩
  rw [exec_gfexp, alphaPow_mod_255 (LegalParams.generates s.cfg)]

/-- Settles O28: the logarithm is below 255, so the result byte holds it. -/
theorem gflogFindsTheExponentOrRaises : Obligations.GflogFindsTheExponentOrRaises := by
  unfold Obligations.GflogFindsTheExponentOrRaises
  refine ⟨formatZ_of_decode fun w hop => by rw [decode, hop]; rfl,
    fun s => ⟨exec_gflog_of_zero, fun ha => ?_⟩⟩
  obtain ⟨hlt, hpow⟩ := gfLog_spec (LegalParams.generates s.cfg) ha
  have hbyte : (BitVec.ofNat 8 (gfLog s.cfg.gfPoly s.gfa)).toNat = gfLog s.cfg.gfPoly s.gfa :=
    (BitVec.toNat_ofNat _ 8).trans (Nat.mod_eq_of_lt (by omega))
  exact ⟨_, by rwa [hbyte], by rwa [hbyte], exec_gflog_of_ne_zero ha⟩

end Sys2Proof.Proofs

/-! ## Proofs: the bit-vector packer (41_bitvector.md R140 to R146)

The bits of a packed byte, the runs of a bit sequence and what they tile, the fields of a run entry,
and the states that PACK, UNPACK and RLE leave. -/

namespace Sys2Proof.Machine

open Sys2Proof.Claims

/-! ### Command words of format N (30_encoding.md R103, R106) -/

/-- Where the table gives an opcode to the format N commands `f`, its words follow the format. -/
theorem formatN_of_decode {op : Byte} {f : Nat → Instr}
    (h : ∀ w, opcodeOf w = op → decode w = decodeN w f) : FormatN op f := by
  intro w s hop
  split
  case isTrue hz =>
    exact State.command_of_decode ((h w hop).trans (if_pos hz)) s
  case isFalse hnz =>
    rw [State.command, h w hop, decodeN, if_neg hnz]
    rfl

/-! ### The bits of a packed byte (41_bitvector.md R141; 20_memory.md R78) -/

theorem ofBool_getLsbD_zero (b : Bit) : BitVec.ofBool (b.getLsbD 0) = b := by
  rcases BitVec.eq_zero_or_eq_one b with rfl | rfl <;> rfl

/-- One more digit doubles the number and adds the digit. -/
theorem sum_msbFirst_succ (b : Nat → Bit) (k : Nat) :
    ((List.range (k + 1)).map fun t => (b t).toNat * 2 ^ (k - t)).sum =
      Nat.bit ((b k).getLsbD 0)
        ((List.range k).map fun t => (b t).toNat * 2 ^ (k - 1 - t)).sum := by
  have hdouble : ∀ t ∈ List.range k,
      (b t).toNat * 2 ^ (k - t) = 2 * ((b t).toNat * 2 ^ (k - 1 - t)) := by
    intro t ht
    have htk := List.mem_range.mp ht
    rw [show k - t = k - 1 - t + 1 by omega, pow_succ]
    ring
  have hdigit : (b k).toNat = ((b k).getLsbD 0).toNat := by
    rw [← BitVec.toNat_ofBool, ofBool_getLsbD_zero]
  rw [List.range_succ, List.map_append, List.sum_append, List.map_congr_left hdouble,
    List.sum_map_mul_left, Nat.bit_val, List.map_singleton, List.sum_singleton, Nat.sub_self,
    pow_zero, mul_one, hdigit]

/-- Digit `t` of a number written most significant digit first. -/
theorem testBit_sum_msbFirst (b : Nat → Bit) {k t : Nat} (ht : t < k) :
    ((List.range k).map fun t => (b t).toNat * 2 ^ (k - 1 - t)).sum.testBit (k - 1 - t) =
      (b t).getLsbD 0 := by
  induction k with
  | zero => omega
  | succ k ih =>
    rw [Nat.add_sub_cancel, sum_msbFirst_succ]
    obtain hlast | hlt : t = k ∨ t < k := by omega
    · rw [hlast, Nat.sub_self, Nat.testBit_bit_zero]
    · rw [show k - t = k - 1 - t + 1 by omega, Nat.testBit_bit_succ, ih hlt]

theorem getLsbD_packByte (seq : List Bit) (j : Nat) {t : Nat} (ht : t < 8) :
    (packByte seq j).getLsbD (7 - t) = (bitAt seq (8 * j + t)).getLsbD 0 := by
  rw [packByte, BitVec.getLsbD_ofNat, decide_eq_true (by omega), Bool.true_and]
  simpa only [Nat.reduceSub] using testBit_sum_msbFirst (fun t => bitAt seq (8 * j + t)) ht

theorem bitAt_bits (s : State) (n p : Nat) :
    bitAt (s.bits n) p = if p < n then s.bvAt p else 0 := by
  unfold bitAt State.bits
  split
  case isTrue h => simp [h]
  case isFalse h => simp [h]

/-- A byte is known by its eight bits in packed order. -/
theorem byte_eq_of_bitOfBytes_eq {f g : Nat → Byte} {j : Nat}
    (h : ∀ t < 8, bitOfBytes f (8 * j + t) = bitOfBytes g (8 * j + t)) : f j = g j := by
  apply BitVec.eq_of_getLsbD_eq
  intro i hi
  have hbit := h (7 - i) (by omega)
  rwa [bitOfBytes, bitOfBytes, show (8 * j + (7 - i)) / 8 = j by omega,
    show 7 - (8 * j + (7 - i)) % 8 = i by omega] at hbit

/-! ### PACK (41_bitvector.md R142) -/

theorem out_of_range_iff (s : State) (n : Nat) :
    (n > s.cfg.bvMax ∨ bytesFor n > s.cfg.sbMax) ↔ (n > s.cfg.bvMax ∨ n > 8 * s.cfg.sbMax) := by
  unfold bytesFor
  omega

/-- What PACK n leaves when it succeeds. -/
def State.pack (s : State) (n : Nat) : State :=
  { s with sb := Memory.setFrom s.sb 0 (packBytes (s.bits n)), lastErr := 0 }

theorem exec_pack_of_gt {s : State} {n : Nat} (h : n > s.cfg.bvMax ∨ n > 8 * s.cfg.sbMax) :
    exec (.pack n) s = .next (withError s 2 (encode (.pack n))) :=
  if_pos ((out_of_range_iff s n).mpr h)

theorem exec_pack_of_le {s : State} {n : Nat} (hbv : n ≤ s.cfg.bvMax) (hsb : n ≤ 8 * s.cfg.sbMax) :
    exec (.pack n) s = .next (s.pack n) :=
  if_neg ((out_of_range_iff s n).not.mpr (by omega))

theorem State.sbAt_pack (s : State) (n j : Nat) :
    (s.pack n).sbAt j = if j < bytesFor n then packByte (s.bits n) j else s.sbAt j := by
  refine (s.sbAt_setFrom 0 (packBytes (s.bits n)) j).trans ?_
  rw [length_packBytes_bits]
  by_cases hj : j < bytesFor n
  · rw [if_pos (by omega), if_pos hj]
    simp [packBytes, s.length_bits, hj]
  · rw [if_neg (by omega), if_neg hj]

theorem State.bitOfBytes_pack (s : State) {n p : Nat} (hp : p < 8 * bytesFor n) :
    bitOfBytes (s.pack n).sbAt p = (decide (p < n) && (s.bvAt p).getLsbD 0) := by
  rw [bitOfBytes, State.sbAt_pack, if_pos (by omega), getLsbD_packByte _ _ (by omega),
    Nat.div_add_mod, bitAt_bits]
  by_cases h : p < n <;> simp [h]

/-! ### UNPACK (41_bitvector.md R143) -/

/-- What UNPACK n leaves when it succeeds. -/
def State.unpack (s : State) (n : Nat) : State :=
  { s with bv := Memory.setFrom s.bv 0 (unpackBits s.sbAt n), lastErr := 0 }

theorem exec_unpack_of_gt {s : State} {n : Nat} (h : n > s.cfg.bvMax ∨ n > 8 * s.cfg.sbMax) :
    exec (.unpack n) s = .next (withError s 2 (encode (.unpack n))) :=
  if_pos ((out_of_range_iff s n).mpr h)

theorem exec_unpack_of_le {s : State} {n : Nat} (hbv : n ≤ s.cfg.bvMax)
    (hsb : n ≤ 8 * s.cfg.sbMax) : exec (.unpack n) s = .next (s.unpack n) :=
  if_neg ((out_of_range_iff s n).not.mpr (by omega))

theorem State.bvAt_unpack (s : State) (n p : Nat) :
    (s.unpack n).bvAt p = if p < n then BitVec.ofBool (bitOfBytes s.sbAt p) else s.bvAt p := by
  refine (s.bvAt_setFrom 0 (unpackBits s.sbAt n) p).trans ?_
  rw [length_unpackBits]
  by_cases hp : p < n
  · rw [if_pos (by omega), if_pos hp]
    simp [unpackBits, hp, bitOf, bitOfBytes]
  · rw [if_neg (by omega), if_neg hp]

theorem State.getLsbD_bvAt_unpack (s : State) {n p : Nat} (hp : p < n) :
    ((s.unpack n).bvAt p).getLsbD 0 = bitOfBytes s.sbAt p := by
  rw [State.bvAt_unpack, if_pos hp]
  cases bitOfBytes s.sbAt p <;> rfl

/-! ### Both round trips (41_bitvector.md R145) -/

theorem State.bvAt_pack_unpack (s : State) {n p : Nat} (hp : p < n) :
    ((s.pack n).unpack n).bvAt p = s.bvAt p := by
  rw [State.bvAt_unpack, if_pos hp, State.bitOfBytes_pack s (by unfold bytesFor; omega),
    decide_eq_true hp, Bool.true_and, ofBool_getLsbD_zero]

theorem State.bitOfBytes_unpack_pack (s : State) {n p : Nat} (hp : p < 8 * bytesFor n) :
    bitOfBytes ((s.unpack n).pack n).sbAt p = (decide (p < n) && bitOfBytes s.sbAt p) := by
  rw [State.bitOfBytes_pack _ hp]
  by_cases h : p < n
  · rw [State.getLsbD_bvAt_unpack s h]
  · rw [decide_eq_false h, Bool.false_and, Bool.false_and]

theorem State.sbAt_unpack_pack (s : State) {n j : Nat} (hn : n % 8 = 0) (hj : j < bytesFor n) :
    ((s.unpack n).pack n).sbAt j = s.sbAt j := by
  refine byte_eq_of_bitOfBytes_eq fun t ht => ?_
  have hlast : 8 * j + t < n := by
    unfold bytesFor at hj
    omega
  rw [State.bitOfBytes_unpack_pack s (by omega), decide_eq_true hlast, Bool.true_and]

/-! ### The runs of a bit sequence (41_bitvector.md R144, R146)

Each fact is proved of `runsFrom`, for a run of `b` under way whose `count` bits so far stand before
the rest of the sequence, and read off for the whole sequence. -/

/-- The bits that a run list stands for: `count` copies of `bit`, in order (R146). -/
def expandRuns (runs : List Run) : List Bit := runs.flatMap fun r => List.replicate r.count r.bit

/-- `r'` begins where `r` ends, with the other bit. -/
def Run.Next (r r' : Run) : Prop := r'.offset = r.offset + r.count ∧ r'.bit ≠ r.bit

/-- The run `r` covers bits of `seq` that all have its value. -/
def Run.Covers (r : Run) (seq : List Bit) : Prop :=
  ∃ before rest, before.length = r.offset ∧ seq = before ++ (List.replicate r.count r.bit ++ rest)

theorem expandRuns_runsFrom (b : Bit) (offset count : Nat) (seq : List Bit) :
    expandRuns (runsFrom b offset count seq) = List.replicate count b ++ seq := by
  induction seq generalizing b offset count with
  | nil => simp [runsFrom, expandRuns]
  | cons c seq ih =>
    unfold runsFrom
    split
    case isTrue hsame => rw [ih, hsame, List.replicate_succ', List.append_assoc]; rfl
    case isFalse hother => exact congrArg (List.replicate count b ++ ·) (ih c (offset + count) 1)

theorem expandRuns_runsOf (seq : List Bit) : expandRuns (runsOf seq) = seq := by
  cases seq with
  | nil => rfl
  | cons b seq => exact expandRuns_runsFrom b 0 1 seq

theorem sum_count_eq_length_expandRuns (runs : List Run) :
    (runs.map Run.count).sum = (expandRuns runs).length := by
  simp [expandRuns, List.length_flatMap]

/-- The first run is the one under way, however long it gets. -/
theorem runsFrom_eq_cons (b : Bit) (offset count : Nat) (seq : List Bit) :
    ∃ count' runs, runsFrom b offset count seq = ⟨b, offset, count'⟩ :: runs := by
  induction seq generalizing count with
  | nil => exact ⟨count, [], rfl⟩
  | cons c seq ih =>
    unfold runsFrom
    split
    case isTrue hsame => exact ih (count + 1)
    case isFalse hother => exact ⟨count, _, rfl⟩

theorem offset_of_head?_runsOf {seq : List Bit} {r : Run} (h : (runsOf seq).head? = some r) :
    r.offset = 0 := by
  cases seq with
  | nil => cases h
  | cons b seq =>
    obtain ⟨count, runs, hruns⟩ := runsFrom_eq_cons b 0 1 seq
    rw [runsOf, hruns] at h
    cases h
    rfl

theorem runsOf_eq_nil {seq : List Bit} : runsOf seq = [] ↔ seq = [] := by
  cases seq with
  | nil => simp [runsOf]
  | cons b seq =>
    obtain ⟨count, runs, hruns⟩ := runsFrom_eq_cons b 0 1 seq
    simp [runsOf, hruns]

theorem isChain_runsFrom (b : Bit) (offset count : Nat) (seq : List Bit) :
    (runsFrom b offset count seq).IsChain Run.Next := by
  induction seq generalizing b offset count with
  | nil => exact List.isChain_singleton _
  | cons c seq ih =>
    unfold runsFrom
    split
    case isTrue hsame => exact ih b offset (count + 1)
    case isFalse hother =>
      have hrest := ih c (offset + count) 1
      obtain ⟨count', runs, hruns⟩ := runsFrom_eq_cons c (offset + count) 1 seq
      rw [hruns] at hrest ⊢
      exact hrest.cons_cons ⟨rfl, hother⟩

theorem isChain_runsOf (seq : List Bit) : (runsOf seq).IsChain Run.Next := by
  cases seq with
  | nil => exact List.isChain_nil
  | cons b seq => exact isChain_runsFrom b 0 1 seq

theorem end_of_getLast?_runsFrom {b : Bit} {offset count : Nat} {seq : List Bit} {r : Run}
    (h : (runsFrom b offset count seq).getLast? = some r) :
    r.offset + r.count = offset + count + seq.length := by
  induction seq generalizing b offset count with
  | nil => cases h; rfl
  | cons c seq ih =>
    rw [List.length_cons]
    unfold runsFrom at h
    split at h
    case isTrue hsame => have := ih h; omega
    case isFalse hother =>
      obtain ⟨count', runs, hruns⟩ := runsFrom_eq_cons c (offset + count) 1 seq
      rw [hruns, List.getLast?_cons_cons, ← hruns] at h
      have := ih h
      omega

theorem end_of_getLast?_runsOf {seq : List Bit} {r : Run} (h : (runsOf seq).getLast? = some r) :
    r.offset + r.count = seq.length := by
  cases seq with
  | nil => cases h
  | cons b seq =>
    have hend := end_of_getLast?_runsFrom h
    rw [List.length_cons]
    omega

theorem count_pos_of_mem_runsFrom {b : Bit} {offset count : Nat} {seq : List Bit} {r : Run}
    (hcount : 1 ≤ count) (h : r ∈ runsFrom b offset count seq) : 1 ≤ r.count := by
  induction seq generalizing b offset count with
  | nil => obtain rfl := List.mem_singleton.mp h; exact hcount
  | cons c seq ih =>
    unfold runsFrom at h
    split at h
    case isTrue hsame => exact ih (Nat.le_add_right_of_le hcount) h
    case isFalse hother =>
      obtain rfl | hrest := List.mem_cons.mp h
      · exact hcount
      · exact ih (Nat.le_refl 1) hrest

theorem count_pos_of_mem_runsOf {seq : List Bit} {r : Run} (h : r ∈ runsOf seq) : 1 ≤ r.count := by
  cases seq with
  | nil => cases h
  | cons b seq => exact count_pos_of_mem_runsFrom (Nat.le_refl 1) h

theorem covers_of_mem_runsFrom {b : Bit} {before : List Bit} {count : Nat} {seq : List Bit}
    {r : Run} (h : r ∈ runsFrom b before.length count seq) :
    r.Covers (before ++ (List.replicate count b ++ seq)) := by
  induction seq generalizing b before count with
  | nil => obtain rfl := List.mem_singleton.mp h; exact ⟨before, [], rfl, rfl⟩
  | cons c seq ih =>
    unfold runsFrom at h
    split at h
    case isTrue hsame =>
      have hcovers := ih h
      rw [List.replicate_succ', List.append_assoc] at hcovers
      rw [hsame]
      exact hcovers
    case isFalse hother =>
      obtain rfl | hrest := List.mem_cons.mp h
      · exact ⟨before, c :: seq, rfl, rfl⟩
      · have hlen : (before ++ List.replicate count b).length = before.length + count := by simp
        rw [← hlen] at hrest
        have hcovers := ih hrest
        rwa [List.append_assoc] at hcovers

theorem covers_of_mem_runsOf {seq : List Bit} {r : Run} (h : r ∈ runsOf seq) : r.Covers seq := by
  cases seq with
  | nil => cases h
  | cons b seq => exact covers_of_mem_runsFrom (before := []) h

theorem Run.Covers.end_le {r : Run} {seq : List Bit} (h : r.Covers seq) :
    r.offset + r.count ≤ seq.length := by
  obtain ⟨before, rest, hlen, rfl⟩ := h
  simp only [List.length_append, List.length_replicate]
  omega

theorem Run.Covers.getElem? {r : Run} {seq : List Bit} (h : r.Covers seq) {p : Nat}
    (hlo : r.offset ≤ p) (hhi : p < r.offset + r.count) : seq[p]? = some r.bit := by
  obtain ⟨before, rest, hlen, rfl⟩ := h
  rw [List.getElem?_append_right (by omega),
    List.getElem?_append_left (by rw [List.length_replicate]; omega),
    List.getElem?_replicate_of_lt (by omega)]

/-! ### A run as an entry of the run list (10_state.md R49) -/

/-- The entry is its three fields side by side when they fit. -/
theorem runWord_eq_append {r : Run} (hoffset : r.offset < 2 ^ 15) (hcount : r.count < 2 ^ 16) :
    runWord r = r.bit ++ (BitVec.ofNat 15 r.offset ++ BitVec.ofNat 16 r.count) := by
  have hoff : BitVec.ofNat 32 r.offset = (BitVec.ofNat 15 r.offset).setWidth 32 := by
    rw [BitVec.setWidth_ofNat_of_le_of_lt (by decide) hoffset]
  have hcnt : BitVec.ofNat 32 r.count = (BitVec.ofNat 16 r.count).setWidth 32 := by
    rw [BitVec.setWidth_ofNat_of_le_of_lt (by decide) hcount]
  rw [runWord, hoff, hcnt]
  generalize BitVec.ofNat 15 r.offset = o
  generalize BitVec.ofNat 16 r.count = c
  apply BitVec.eq_of_getLsbD_eq
  intro i hi
  simp only [BitVec.getLsbD_or, BitVec.getLsbD_shiftLeft, BitVec.getLsbD_setWidth,
    BitVec.getLsbD_append]
  grind

theorem runFields_append (w : Word) :
    w.extractLsb' 31 1 ++ (w.extractLsb' 16 15 ++ w.extractLsb' 0 16) = w := by
  have hlow : w.extractLsb' 16 15 ++ w.extractLsb' 0 16 = w.extractLsb' 0 31 :=
    BitVec.extractLsb'_append_extractLsb'_eq_extractLsb' rfl
  rw [hlow]
  exact BitVec.extractLsb'_append_extractLsb'

/-- Entry `j` of the run list, read as a run. -/
def State.runAt (s : State) (j : Nat) : Run :=
  { bit := runBit s j, offset := runOffset s j, count := runCount s j }

theorem State.runAt_of_rlAt {s : State} {j : Nat} {r : Run} (h : s.rlAt j = runWord r)
    (hoffset : r.offset < 2 ^ 15) (hcount : r.count < 2 ^ 16) : s.runAt j = r := by
  rw [runWord_eq_append hoffset hcount, ← runFields_append (s.rlAt j)] at h
  obtain ⟨hbit, hlow⟩ := append_inj.mp h
  obtain ⟨hoff, hcnt⟩ := append_inj.mp hlow
  rw [State.runAt, runBit, runOffset, runCount, hbit, hoff, hcnt, BitVec.toNat_ofNat,
    BitVec.toNat_ofNat, Nat.mod_eq_of_lt hoffset, Nat.mod_eq_of_lt hcount]

/-! ### RLE (41_bitvector.md R144) -/

/-- What RLE n leaves when it succeeds. -/
def State.rle (s : State) (n : Nat) : State :=
  { s with
    rl := Memory.setFrom s.rl 0 ((runsOf (s.bits n)).map runWord)
    rlcnt := BitVec.ofNat 13 (runsOf (s.bits n)).length
    lastErr := 0 }

theorem exec_rle_of_gt {s : State} {n : Nat} (h : n > s.cfg.bvMax) :
    exec (.rle n) s = .next (withError s 2 (encode (.rle n))) :=
  if_pos h

theorem exec_rle_of_le {s : State} {n : Nat} (h : n ≤ s.cfg.bvMax) :
    exec (.rle n) s = .next (s.rle n) :=
  if_neg (Nat.not_lt.mpr h)

theorem State.length_runsOf_bits_le (s : State) (n : Nat) : (runsOf (s.bits n)).length ≤ n := by
  simpa only [List.length_map] using length_runWords_le s n

theorem State.length_runsOf_bits_eq_zero (s : State) {n : Nat} :
    (runsOf (s.bits n)).length = 0 ↔ n = 0 := by
  rw [List.length_eq_zero_iff, runsOf_eq_nil, ← List.length_eq_zero_iff, s.length_bits]

theorem State.toNat_rlcnt_rle {s : State} {n : Nat} (hn : n ≤ s.cfg.bvMax) :
    (s.rle n).rlcnt.toNat = (runsOf (s.bits n)).length := by
  have hlen := s.length_runsOf_bits_le n
  have hcap := LegalParams.bounds s.cfg
  exact (BitVec.toNat_ofNat _ 13).trans (Nat.mod_eq_of_lt (by omega))

theorem State.rlAt_rle_of_ge (s : State) {n j : Nat} (hj : (runsOf (s.bits n)).length ≤ j) :
    (s.rle n).rlAt j = s.rlAt j :=
  (s.rlAt_setFrom 0 _ j).trans (if_neg (by rw [List.length_map]; omega))

theorem State.rlAt_rle_of_lt (s : State) {n j : Nat} (hj : j < (runsOf (s.bits n)).length) :
    (s.rle n).rlAt j = runWord (runsOf (s.bits n))[j] := by
  refine (s.rlAt_setFrom 0 _ j).trans ?_
  rw [if_pos (by rw [List.length_map]; omega)]
  simp [hj]

theorem State.runAt_rle {s : State} {n j : Nat} (hn : n ≤ s.cfg.bvMax)
    (hj : j < (runsOf (s.bits n)).length) : (s.rle n).runAt j = (runsOf (s.bits n))[j] := by
  have hend := (covers_of_mem_runsOf (List.getElem_mem hj)).end_le
  rw [s.length_bits] at hend
  have hcap := LegalParams.bounds s.cfg
  exact State.runAt_of_rlAt (s.rlAt_rle_of_lt hj) (by omega) (by omega)

theorem State.map_runAt_rle {s : State} {n : Nat} (hn : n ≤ s.cfg.bvMax) :
    (List.range (runsOf (s.bits n)).length).map (s.rle n).runAt = runsOf (s.bits n) :=
  List.ext_getElem (by simp) fun j _ hj => by simp [State.runAt_rle hn hj]

section Runs

/-! The clauses of R144 and R146 in the fields of the entries that RLE n leaves. -/

variable {s : State} {n j : Nat} (hn : n ≤ s.cfg.bvMax)
include hn

theorem runBit_rle (hj : j < (runsOf (s.bits n)).length) :
    runBit (s.rle n) j = (runsOf (s.bits n))[j].bit :=
  congrArg Run.bit (State.runAt_rle hn hj)

theorem runOffset_rle (hj : j < (runsOf (s.bits n)).length) :
    runOffset (s.rle n) j = (runsOf (s.bits n))[j].offset :=
  congrArg Run.offset (State.runAt_rle hn hj)

theorem runCount_rle (hj : j < (runsOf (s.bits n)).length) :
    runCount (s.rle n) j = (runsOf (s.bits n))[j].count :=
  congrArg Run.count (State.runAt_rle hn hj)

theorem runOffset_rle_first (hpos : 0 < (runsOf (s.bits n)).length) :
    runOffset (s.rle n) 0 = 0 := by
  rw [runOffset_rle hn hpos]
  exact offset_of_head?_runsOf (List.head?_eq_getElem? ▸ List.getElem?_eq_getElem hpos)

theorem end_rle_last (hpos : 0 < (runsOf (s.bits n)).length) :
    runOffset (s.rle n) ((runsOf (s.bits n)).length - 1) +
      runCount (s.rle n) ((runsOf (s.bits n)).length - 1) = n := by
  have hlast : (runsOf (s.bits n)).length - 1 < (runsOf (s.bits n)).length := by omega
  rw [runOffset_rle hn hlast, runCount_rle hn hlast]
  refine (end_of_getLast?_runsOf ?_).trans (s.length_bits n)
  rw [List.getLast?_eq_getElem?, List.getElem?_eq_getElem hlast]

theorem one_le_runCount_rle (hj : j < (runsOf (s.bits n)).length) :
    1 ≤ runCount (s.rle n) j := by
  rw [runCount_rle hn hj]
  exact count_pos_of_mem_runsOf (List.getElem_mem hj)

theorem bvAt_eq_runBit_rle (hj : j < (runsOf (s.bits n)).length) {p : Nat}
    (hlo : runOffset (s.rle n) j ≤ p)
    (hhi : p < runOffset (s.rle n) j + runCount (s.rle n) j) : s.bvAt p = runBit (s.rle n) j := by
  rw [runOffset_rle hn hj] at hlo hhi
  rw [runCount_rle hn hj] at hhi
  rw [runBit_rle hn hj]
  have hbit := (covers_of_mem_runsOf (List.getElem_mem hj)).getElem? hlo hhi
  obtain ⟨hp, hbit⟩ := List.getElem?_eq_some_iff.mp hbit
  simpa [State.bits] using hbit

theorem next_rle (hj : j + 1 < (runsOf (s.bits n)).length) :
    runOffset (s.rle n) (j + 1) = runOffset (s.rle n) j + runCount (s.rle n) j ∧
      runBit (s.rle n) (j + 1) ≠ runBit (s.rle n) j := by
  have hj' := Nat.lt_of_succ_lt hj
  rw [runOffset_rle hn hj, runOffset_rle hn hj', runCount_rle hn hj', runBit_rle hn hj,
    runBit_rle hn hj']
  exact List.isChain_iff_getElem.mp (isChain_runsOf (s.bits n)) j hj

theorem sum_runCount_rle :
    ((List.range (runsOf (s.bits n)).length).map (runCount (s.rle n))).sum = n :=
  calc ((List.range (runsOf (s.bits n)).length).map (runCount (s.rle n))).sum
    _ = (((List.range (runsOf (s.bits n)).length).map (s.rle n).runAt).map Run.count).sum := by
      rw [List.map_map]; rfl
    _ = (expandRuns (runsOf (s.bits n))).length := by
      rw [State.map_runAt_rle hn, sum_count_eq_length_expandRuns]
    _ = n := by rw [expandRuns_runsOf, s.length_bits]

/-- R146: expanding the list gives the bits back. -/
theorem flatMap_runs_rle :
    (List.range (runsOf (s.bits n)).length).flatMap
      (fun j => List.replicate (runCount (s.rle n) j) (runBit (s.rle n) j)) = s.bits n :=
  calc _
    _ = expandRuns ((List.range (runsOf (s.bits n)).length).map (s.rle n).runAt) := by
      rw [expandRuns, List.flatMap_map]; rfl
    _ = s.bits n := by rw [State.map_runAt_rle hn, expandRuns_runsOf]

end Runs

end Sys2Proof.Machine

namespace Sys2Proof.Proofs

open Sys2Proof.Machine Sys2Proof.Claims

/-- Settles O29: by the range test, and each written byte bit by bit. -/
theorem packMovesBitsToBytes : Obligations.PackMovesBitsToBytes := by
  unfold Obligations.PackMovesBitsToBytes
  refine ⟨formatN_of_decode fun w hop => by rw [decode, hop]; rfl,
    fun n s => ⟨exec_pack_of_gt, fun hbv hsb => ?_⟩⟩
  exact ⟨s.pack n, exec_pack_of_le hbv hsb, fun p hp => s.bitOfBytes_pack hp,
    fun j hj => (s.sbAt_pack n j).trans (if_neg (Nat.not_lt.mpr hj)), rfl⟩

/-- Settles O30: by the range test, and each written cell. -/
theorem unpackMovesBytesToBits : Obligations.UnpackMovesBytesToBits := by
  unfold Obligations.UnpackMovesBytesToBits
  refine ⟨formatN_of_decode fun w hop => by rw [decode, hop]; rfl,
    fun n s => ⟨exec_unpack_of_gt, fun hbv hsb => ?_⟩⟩
  exact ⟨s.unpack n, exec_unpack_of_le hbv hsb, fun p hp => s.getLsbD_bvAt_unpack hp,
    fun p hp => (s.bvAt_unpack n p).trans (if_neg (Nat.not_lt.mpr hp)), rfl⟩

/-- Settles O31: the entries written are the runs of the bits, each read back from its word, and the
clauses are what is known of the runs of a sequence. -/
theorem rleGroupsRunsThatExpandToTheBits : Obligations.RleGroupsRunsThatExpandToTheBits := by
  unfold Obligations.RleGroupsRunsThatExpandToTheBits
  refine ⟨formatN_of_decode fun w hop => by rw [decode, hop]; rfl,
    fun n s => ⟨exec_rle_of_gt, fun hn => ?_⟩⟩
  refine ⟨s.rle n, exec_rle_of_le hn, rfl, ?_⟩
  rintro m hm
  rw [State.toNat_rlcnt_rle hn] at hm
  subst hm
  exact ⟨s.length_runsOf_bits_le n, s.length_runsOf_bits_eq_zero,
    fun hpos => ⟨runOffset_rle_first hn hpos, end_rle_last hn hpos⟩,
    fun j hj => ⟨one_le_runCount_rle hn hj, fun p => bvAt_eq_runBit_rle hn hj⟩,
    fun j => next_rle hn, sum_runCount_rle hn, flatMap_runs_rle hn, fun j => s.rlAt_rle_of_ge⟩

/-- Settles O32: each half reads back what the other wrote. -/
theorem packAndUnpackAreRoundTrips : Obligations.PackAndUnpackAreRoundTrips := by
  unfold Obligations.PackAndUnpackAreRoundTrips
  intro n s hbv hsb
  exact ⟨⟨s.pack n, (s.pack n).unpack n, exec_pack_of_le hbv hsb, exec_unpack_of_le hbv hsb,
      fun p hp => s.bvAt_pack_unpack hp⟩,
    ⟨s.unpack n, (s.unpack n).pack n, exec_unpack_of_le hbv hsb, exec_pack_of_le hbv hsb,
      fun hn j hj => s.sbAt_unpack_pack hn hj, fun p hp => s.bitOfBytes_unpack_pack hp⟩⟩

end Sys2Proof.Proofs

/-! ## Proofs: the parity generator and checker (42_parity.md R156 to R160)

A parity byte is an exclusive-or sum of products. Such sums are additive in their terms, and with
the distributive law of the product that gives what R160 says of a changed shard. PARGEN and PARCHK
write the same cells of `PAR`. -/

namespace Sys2Proof.Machine

open Sys2Proof.Claims

/-! ### Sums over exclusive or -/

/-- The sum `f 0 ⊕ … ⊕ f (n − 1)`, the empty sum being 0x00 (42_parity.md R156). -/
def xorSum (f : Nat → Byte) (n : Nat) : Byte := ((List.range n).map f).foldl (· ^^^ ·) 0

theorem xorSum_succ (f : Nat → Byte) (n : Nat) : xorSum f (n + 1) = xorSum f n ^^^ f n := by
  simp [xorSum, List.range_succ]

theorem xorSum_congr {f g : Nat → Byte} {n : Nat} (h : ∀ i < n, f i = g i) :
    xorSum f n = xorSum g n := by
  rw [xorSum, xorSum, List.map_congr_left fun i hi => h i (List.mem_range.mp hi)]

/-- The sum is additive in its terms. -/
theorem xorSum_xor (f g : Nat → Byte) (n : Nat) :
    xorSum (fun i => f i ^^^ g i) n = xorSum f n ^^^ xorSum g n := by
  induction n with
  | zero => exact BitVec.xor_zero.symm
  | succ n ih =>
    rw [xorSum_succ, xorSum_succ, xorSum_succ, ih]
    ac_rfl

/-- A sum with one term that can differ from 0. -/
theorem xorSum_single (i : Nat) (e : Byte) (n : Nat) :
    xorSum (fun j => if j = i then e else 0) n = if i < n then e else 0 := by
  induction n with
  | zero => rfl
  | succ n ih =>
    rw [xorSum_succ, ih]
    obtain hlt | rfl | hgt := Nat.lt_trichotomy i n
    · rw [if_pos hlt, if_neg hlt.ne', if_pos (by omega)]
      exact BitVec.xor_zero
    · rw [if_neg (lt_irrefl i), if_pos rfl, if_pos (Nat.lt_succ_self i)]
      exact BitVec.zero_xor
    · rw [if_neg hgt.asymm, if_neg hgt.ne, if_neg (by omega)]
      exact BitVec.xor_zero

/-- The order of the terms does not matter (42_parity.md R156). -/
theorem xorSum_eq_foldr (f : Nat → Byte) (n : Nat) :
    xorSum f n = ((List.range n).map f).foldr (· ^^^ ·) 0 :=
  List.foldl_eq_foldr

/-! ### The parity byte (42_parity.md R156) -/

/-- A term of R156, the product of a coefficient and a shard byte. -/
def State.parityTerm (s : State) (k i : Nat) : Byte := gfMul s.cfg.gfPoly (s.cfAt k i) (s.sbAt i)

theorem State.parityByte_eq_xorSum (s : State) (k : Nat) :
    s.parityByte k = xorSum (s.parityTerm k) s.slen.toNat := rfl

theorem paritySum_eq_xorSum (s : State) (k n : Nat) :
    paritySum s k n = xorSum (s.parityTerm k) n := by
  induction n with
  | zero => rfl
  | succ n ih =>
    rw [paritySum, xorSum_succ, ih, State.parityTerm,
      gfMul_eq_tableProduct (LegalParams.generates s.cfg)]

theorem State.parityByte_eq_parity (s : State) : s.parityByte = parity s :=
  funext fun k => (paritySum_eq_xorSum s k s.slen.toNat).symm

/-! ### What a changed shard does to a parity byte (42_parity.md R160) -/

/-- Two shards under the same coefficients: the parity byte of their sum. -/
theorem parityByte_eq_xor {s a b : State} {k : Nat} (hacfg : a.cfg = s.cfg) (hbcfg : b.cfg = s.cfg)
    (halen : a.slen = s.slen) (hblen : b.slen = s.slen)
    (hcells : ∀ i < s.slen.toNat, a.cfAt k i = s.cfAt k i ∧ b.cfAt k i = s.cfAt k i ∧
      s.sbAt i = a.sbAt i ^^^ b.sbAt i) :
    s.parityByte k = a.parityByte k ^^^ b.parityByte k := by
  have hterm : ∀ i < s.slen.toNat, s.parityTerm k i = a.parityTerm k i ^^^ b.parityTerm k i := by
    intro i hi
    obtain ⟨hacf, hbcf, hsb⟩ := hcells i hi
    rw [State.parityTerm, State.parityTerm, State.parityTerm, hacfg, hbcfg, hacf, hbcf, hsb,
      gfMul_xor]
  simp only [State.parityByte_eq_xorSum]
  rw [xorSum_congr hterm, xorSum_xor, halen, hblen]

/-- With coefficients 0x01 the terms are the shard bytes. -/
theorem State.parityByte_of_coefficients_one {s : State} {k : Nat}
    (hone : ∀ i < s.slen.toNat, s.cfAt k i = 0x01) :
    s.parityByte k = ((List.range s.slen.toNat).map s.sbAt).foldr (· ^^^ ·) 0 := by
  have hterm : ∀ i < s.slen.toNat, s.parityTerm k i = s.sbAt i := by
    intro i hi
    rw [State.parityTerm, hone i hi, gfMul_one_left]
  rw [State.parityByte_eq_xorSum, xorSum_congr hterm, xorSum_eq_foldr]

/-- Changing shard byte `i` by `d` changes term `i` by its product with `d`, and no other term. -/
theorem parityByte_of_changed_byte {s t : State} {k i : Nat} {d : Byte} (hcfg : t.cfg = s.cfg)
    (hlen : t.slen = s.slen) (hcf : ∀ j, t.cfAt k j = s.cfAt k j) (hi : i < s.slen.toNat)
    (hchanged : t.sbAt i = s.sbAt i ^^^ d) (hsame : ∀ j, j ≠ i → t.sbAt j = s.sbAt j) :
    t.parityByte k = s.parityByte k ^^^ gfMul s.cfg.gfPoly (s.cfAt k i) d := by
  have hterm : ∀ j < s.slen.toNat, t.parityTerm k j =
      s.parityTerm k j ^^^ if j = i then gfMul s.cfg.gfPoly (s.cfAt k i) d else 0 := by
    intro j _
    rw [State.parityTerm, State.parityTerm, hcfg, hcf]
    by_cases hj : j = i
    · rw [hj, if_pos rfl, hchanged, gfMul_xor]
    · rw [if_neg hj, hsame j hj]
      exact BitVec.xor_zero.symm
  rw [State.parityByte_eq_xorSum, hlen, xorSum_congr hterm, xorSum_xor, xorSum_single, if_pos hi,
    State.parityByte_eq_xorSum]

/-- A legal field has no zero divisors (40_gf256.md R130). -/
theorem gfMul_eq_zero_iff (c : LegalParams) (a : Byte) {d : Byte} (hd : d ≠ 0) :
    gfMul c.gfPoly a d = 0 ↔ a = 0 := by
  constructor
  · intro h
    exact (eq_zero_or_eq_zero_of_gfMul_eq_zero (LegalParams.generates c) h).resolve_right hd
  · rintro rfl
    exact gfMul_zero_left _ d

/-! ### The comparison (42_parity.md R157, R160) -/

theorem State.parityMatches_iff (s : State) : s.parityMatches = true ↔ GroupsAgree s := by
  simp only [State.parityMatches, List.all_eq_true, List.mem_range, beq_iff_eq,
    s.parityByte_eq_parity]
  rfl

theorem getLsbD_xor_pow_self (x : Byte) {i : Nat} (hi : i < 8) :
    (x ^^^ BitVec.ofNat 8 (2 ^ i)).getLsbD i = !x.getLsbD i := by
  rw [BitVec.getLsbD_xor, BitVec.getLsbD_ofNat, Nat.testBit_two_pow_self, decide_eq_true hi,
    Bool.true_and, Bool.xor_true]

/-- `s` with bit `j` of the received group flipped. -/
def State.flipReceived (s : State) (j : Nat) : State :=
  { s with
    rxp := s.rxp.setIfInBounds (j / 8) (s.rxpAt (j / 8) ^^^ BitVec.ofNat 8 (2 ^ (7 - j % 8))) }

theorem State.bitOfBytes_flipReceived (s : State) {j : Nat} (hj : j / 8 < 8) :
    bitOfBytes (s.flipReceived j).rxpAt j = !bitOfBytes s.rxpAt j := by
  rw [bitOfBytes, State.flipReceived, State.rxpAt_set s hj, if_pos rfl,
    getLsbD_xor_pow_self _ (by omega), bitOfBytes]

theorem State.parityByte_flipReceived (s : State) (j : Nat) :
    (s.flipReceived j).parityByte = s.parityByte := rfl

/-- The computed bit is the same, the received one is not. -/
theorem not_groupsAgree_flipReceived {s : State} {j : Nat} (hj : j < s.pbits.toNat)
    (hcell : j / 8 < 8) (hagree : GroupsAgree s) : ¬GroupsAgree (s.flipReceived j) := by
  intro hflip
  have hbit := hflip j hj
  rw [s.bitOfBytes_flipReceived hcell, ← State.parityByte_eq_parity, s.parityByte_flipReceived,
    s.parityByte_eq_parity, hagree j hj] at hbit
  exact Bool.self_ne_not _ hbit

/-! ### PARGEN and PARCHK (42_parity.md R158, R159) -/

theorem State.parityOutOfRange_iff (s : State) :
    s.parityOutOfRange ↔
      s.slen.toNat > s.cfg.sbMax ∨ s.prows = 0 ∨ s.prows.toNat > s.cfg.kMax := by
  rw [State.parityOutOfRange, BitVec.toNat_eq (x := s.prows)]
  rfl

theorem State.groupOutOfRange_iff (s : State) :
    s.groupOutOfRange ↔ s.pbits = 0 ∨ s.pbits.toNat > 8 * s.prows.toNat := by
  rw [State.groupOutOfRange, BitVec.toNat_eq (x := s.pbits)]
  rfl

/-- The cells of `PAR` after either command: the first `PROWS` hold the parity bytes. -/
theorem parAt_of_par_eq_setParity {s t : State} (ht : t.par = s.setParity.par)
    (hrows : s.prows.toNat ≤ s.cfg.kMax) (k : Nat) :
    t.parAt k = if k < s.prows.toNat then parity s k else s.parAt k := by
  have hbounds := LegalParams.bounds s.cfg
  have hlen : s.parityBytes.length = s.prows.toNat := by simp [State.parityBytes]
  rw [State.parAt, ht, State.setParity_par, cellOr_setCells 0 s.par 0 _ (by omega), hlen]
  by_cases hk : k < s.prows.toNat
  · rw [if_pos (by omega), if_pos hk]
    simp [State.parityBytes, hk, s.parityByte_eq_parity]
  · rw [if_neg (by omega), if_neg hk, State.parAt]

theorem parAt_of_lt_prows {s t : State} (ht : t.par = s.setParity.par)
    (hrows : s.prows.toNat ≤ s.cfg.kMax) {k : Nat} (hk : k < s.prows.toNat) :
    t.parAt k = parity s k :=
  (parAt_of_par_eq_setParity ht hrows k).trans (if_pos hk)

theorem parAt_of_prows_le {s t : State} (ht : t.par = s.setParity.par)
    (hrows : s.prows.toNat ≤ s.cfg.kMax) {k : Nat} (hk : s.prows.toNat ≤ k) :
    t.parAt k = s.parAt k :=
  (parAt_of_par_eq_setParity ht hrows k).trans (if_neg (Nat.not_lt.mpr hk))

theorem exec_pargen_of_out_of_range {s : State} (h : s.parityOutOfRange) :
    exec .pargen s = .next (withError s 2 0x20000000) :=
  if_pos h

theorem exec_pargen_of_in_range {s : State} (h : ¬s.parityOutOfRange) :
    exec .pargen s = .next s.setParity.done :=
  if_neg h

theorem exec_parchk_of_out_of_range {s : State} (h : s.parityOutOfRange ∨ s.groupOutOfRange) :
    exec .parchk s = .next (withError s 2 0x21000000) :=
  if_pos h

theorem exec_parchk_of_agree {s : State} (h : ¬(s.parityOutOfRange ∨ s.groupOutOfRange))
    (hagree : GroupsAgree s) :
    exec .parchk s = .next { s with par := s.setParity.par, pmatch := true, lastErr := 0 } :=
  (if_neg h).trans (if_pos (s.parityMatches_iff.mpr hagree))

theorem exec_parchk_of_disagree {s : State} (h : ¬(s.parityOutOfRange ∨ s.groupOutOfRange))
    (hagree : ¬GroupsAgree s) :
    exec .parchk s =
      .next { withError s 5 0x21000000 with par := s.setParity.par, pmatch := false } :=
  (if_neg h).trans (if_neg (s.parityMatches_iff.not.mpr hagree))

end Sys2Proof.Machine

namespace Sys2Proof.Proofs

open Sys2Proof.Machine Sys2Proof.Claims

/-- Settles O33: by the range test, and each cell of `PAR`. -/
theorem pargenComputesTheParityBytes : Obligations.PargenComputesTheParityBytes := by
  unfold Obligations.PargenComputesTheParityBytes
  refine ⟨formatZ_of_decode fun w hop => by rw [decode, hop]; rfl, fun s => ⟨fun hout => ?_,
    fun hlen hpos hrows => ?_⟩⟩
  · exact exec_pargen_of_out_of_range (s.parityOutOfRange_iff.mpr hout)
  · have hrange : ¬s.parityOutOfRange := by
      simp only [s.parityOutOfRange_iff, not_or, not_lt]
      exact ⟨hlen, hpos, hrows⟩
    exact ⟨_, exec_pargen_of_in_range hrange, fun k => parAt_of_lt_prows rfl hrows,
      fun k => parAt_of_prows_le rfl hrows, rfl⟩

/-- Settles O34: by the two range tests, each cell of `PAR`, and whether the groups agree. -/
theorem parchkComparesTheParityGroup : Obligations.ParchkComparesTheParityGroup := by
  unfold Obligations.ParchkComparesTheParityGroup
  refine ⟨formatZ_of_decode fun w hop => by rw [decode, hop]; rfl, fun s => ⟨fun hout => ?_,
    fun hlen hpos hrows hbits hgroup => ?_⟩⟩
  · refine exec_parchk_of_out_of_range ?_
    rwa [s.parityOutOfRange_iff, s.groupOutOfRange_iff, or_assoc, or_assoc]
  · have hrange : ¬(s.parityOutOfRange ∨ s.groupOutOfRange) := by
      simp only [s.parityOutOfRange_iff, s.groupOutOfRange_iff, not_or, not_lt]
      exact ⟨⟨hlen, hpos, hrows⟩, hbits, hgroup⟩
    by_cases hagree : GroupsAgree s
    · exact ⟨_, exec_parchk_of_agree hrange hagree, fun k => parAt_of_lt_prows rfl hrows,
        fun k => parAt_of_prows_le rfl hrows, fun _ => rfl, fun h => absurd hagree h⟩
    · exact ⟨_, exec_parchk_of_disagree hrange hagree, fun k => parAt_of_lt_prows rfl hrows,
        fun k => parAt_of_prows_le rfl hrows, fun h => absurd h hagree, fun _ => rfl⟩

/-- Settles O35: the product distributes over exclusive or, and 0x01 is its unit. -/
theorem parityIsLinearInTheShard : Obligations.ParityIsLinearInTheShard := by
  unfold Obligations.ParityIsLinearInTheShard
  intro s a b k hacfg hbcfg halen hblen
  exact ⟨parityByte_eq_xor hacfg hbcfg halen hblen, State.parityByte_of_coefficients_one⟩

/-- Settles O36: one term of the sum changes, by a product without zero divisors. -/
theorem byteChangeMovesTheParityByItsProduct :
    Obligations.ByteChangeMovesTheParityByItsProduct := by
  unfold Obligations.ByteChangeMovesTheParityByItsProduct
  intro s t k i d hcfg hlen hcf hi hd hchanged hsame
  have hmoved := parityByte_of_changed_byte hcfg hlen hcf hi hchanged hsame
  refine ⟨hmoved, not_congr ?_⟩
  rw [hmoved, xor_left_eq_self_iff]
  exact gfMul_eq_zero_iff s.cfg (s.cfAt k i) hd

/-- Settles O37: the flipped bit no longer agrees with the computed one. -/
theorem singleParityBitFlipIsDetected : Obligations.SingleParityBitFlipIsDetected := by
  unfold Obligations.SingleParityBitFlipIsDetected
  intro s j hj hbits hrows hmatch
  have hbounds := LegalParams.bounds s.cfg
  have hflip := not_groupsAgree_flipReceived hj (by omega) (s.parityMatches_iff.mp hmatch)
  exact Bool.eq_false_of_not_eq_true ((s.flipReceived j).parityMatches_iff.not.mpr hflip)

end Sys2Proof.Proofs

/-! ## Proofs: the homography unit (43_homography.md R170 to R187)

The algebra of the 3×3 matrices, the basis map of four points and the map between two such bases, the
rounded entries of a matrix, how HSOLVE ends, and the mapper's exact quotients as floor divisions. -/

namespace Sys2Proof.Machine

open Sys2Proof.Claims

/-! ### 3×3 matrices (43_homography.md R173) -/

/-- The identity matrix. -/
def identity3 : Mat3 := { a := 1, b := 0, c := 0, d := 0, e := 1, f := 0, g := 0, h := 0, i := 1 }

theorem mul3_assoc (p q r : Mat3) : mul3 (mul3 p q) r = mul3 p (mul3 q r) := by
  ext <;> simp only [mul3] <;> ring

theorem mul3_identity3 (m : Mat3) : mul3 m identity3 = m := by
  ext <;> simp [mul3, identity3]

/-- The adjugate over the determinant is a left inverse, entry by entry. -/
theorem inv3_mul3 {m : Mat3} (hdet : det3 m ≠ 0) : mul3 (inv3 m) m = identity3 := by
  ext
  all_goals
    simp only [mul3, inv3, divEntries, identity3, div_mul_eq_mul_div, ← add_div]
    rw [div_eq_iff hdet]
    simp only [adj3, det3]
    ring

/-- It is a right inverse too. -/
theorem mul3_inv3 {m : Mat3} (hdet : det3 m ≠ 0) : mul3 m (inv3 m) = identity3 := by
  ext
  all_goals
    simp only [mul3, inv3, divEntries, identity3, mul_div_assoc', ← add_div]
    rw [div_eq_iff hdet]
    simp only [adj3, det3]
    ring

theorem apply3_mul3 (p q : Mat3) (v : Col3) : apply3 (mul3 p q) v = apply3 p (apply3 q v) := by
  ext <;> simp only [apply3, mul3] <;> ring

theorem apply3_identity3 (v : Col3) : apply3 identity3 v = v := by
  ext <;> simp [apply3, identity3]

theorem apply3_scaled (m : Mat3) (k : ℚ) (v : Col3) :
    apply3 m (scaled k v) = scaled k (apply3 m v) := by
  ext <;> simp only [apply3, scaled] <;> ring

theorem apply3_divEntries (m : Mat3) (q : ℚ) (v : Col3) :
    apply3 (divEntries m q) v = scaled q⁻¹ (apply3 m v) := by
  ext <;> simp only [apply3, divEntries, scaled] <;> ring

theorem scaled_scaled (j k : ℚ) (v : Col3) : scaled j (scaled k v) = scaled (j * k) v := by
  ext <;> simp only [scaled] <;> ring

theorem scaled_one (v : Col3) : scaled 1 v = v := by
  ext <;> simp [scaled]

theorem det3_scaleColumns (m : Mat3) (l : Col3) :
    det3 (scaleColumns m l) = l.x * l.y * l.z * det3 m := by
  simp only [det3, scaleColumns]
  ring

theorem apply3_scaleColumns (m : Mat3) (l v : Col3) :
    apply3 (scaleColumns m l) v = apply3 m { x := l.x * v.x, y := l.y * v.y, z := l.z * v.z } := by
  ext <;> simp only [apply3, scaleColumns] <;> ring

/-! ### The basis map (43_homography.md R174) -/

theorem det3_basisMatrix (p : FourPoints) : det3 (basisMatrix p) = area p.p0 p.p1 p.p2 := by
  simp only [det3, basisMatrix, area]
  ring

/-- Cramer's rule: each scale coefficient is a quotient of two triangle areas. -/
theorem scaleCoefficients_eq (p : FourPoints) :
    scaleCoefficients p =
      { x := area p.p1 p.p2 p.p3 / det3 (basisMatrix p)
        y := -area p.p0 p.p2 p.p3 / det3 (basisMatrix p)
        z := area p.p0 p.p1 p.p3 / det3 (basisMatrix p) } := by
  ext
  all_goals
    simp only [scaleCoefficients, apply3, inv3, divEntries, homogeneous, div_mul_eq_mul_div,
      ← add_div]
    congr 1
    simp only [adj3, basisMatrix, area]
    ring

/-- The determinant and the three coefficients are, up to sign and division, the four areas. -/
theorem generalPosition_iff (p : FourPoints) :
    GeneralPosition p ↔
      det3 (basisMatrix p) ≠ 0 ∧ (scaleCoefficients p).x ≠ 0 ∧ (scaleCoefficients p).y ≠ 0 ∧
        (scaleCoefficients p).z ≠ 0 := by
  rw [GeneralPosition, ← det3_basisMatrix, scaleCoefficients_eq]
  refine and_congr_right fun hdet => ?_
  simp only [ne_eq, div_eq_zero_iff, neg_eq_zero, hdet, or_false]
  tauto

theorem basisMap_of_generalPosition {p : FourPoints} (h : GeneralPosition p) :
    basisMap p = some (scaleColumns (basisMatrix p) (scaleCoefficients p)) := by
  obtain ⟨hdet, hx, hy, hz⟩ := (generalPosition_iff p).mp h
  simp [basisMap, hdet, hx, hy, hz]

theorem basisMap_of_not_generalPosition {p : FourPoints} (h : ¬GeneralPosition p) :
    basisMap p = none := by
  rw [generalPosition_iff] at h
  simp only [basisMap]
  split_ifs with hdet hcoeff
  · rfl
  · rfl
  · exact absurd ⟨hdet, not_or.mp hcoeff |>.imp_right not_or.mp⟩ h

theorem basisMap_ne_none_iff (p : FourPoints) : basisMap p ≠ none ↔ GeneralPosition p := by
  by_cases h : GeneralPosition p
  · simp [h, basisMap_of_generalPosition h]
  · simp [h, basisMap_of_not_generalPosition h]

theorem basisMap_eq_some_iff {p : FourPoints} {m : Mat3} :
    basisMap p = some m ↔
      GeneralPosition p ∧ scaleColumns (basisMatrix p) (scaleCoefficients p) = m := by
  by_cases h : GeneralPosition p
  · simp [h, basisMap_of_generalPosition h]
  · simp [h, basisMap_of_not_generalPosition h]

theorem det3_ne_zero_of_basisMap {p : FourPoints} {m : Mat3} (h : basisMap p = some m) :
    det3 m ≠ 0 := by
  obtain ⟨hgen, rfl⟩ := basisMap_eq_some_iff.mp h
  obtain ⟨hdet, hx, hy, hz⟩ := (generalPosition_iff p).mp hgen
  rw [det3_scaleColumns]
  exact mul_ne_zero (mul_ne_zero (mul_ne_zero hx hy) hz) hdet

/-- `m` sends the column `v` to a non-zero multiple of the column of `p`. -/
def SendsColumn (m : Mat3) (v : Col3) (p : RatPoint) : Prop :=
  ∃ k : ℚ, k ≠ 0 ∧ apply3 m v = scaled k (homogeneous p)

/-- The unit columns and the column of ones, the projective frame that a basis map sends to its four
points. -/
structure SendsFrame (m : Mat3) (p : FourPoints) : Prop where
  first : SendsColumn m { x := 1, y := 0, z := 0 } p.p0
  second : SendsColumn m { x := 0, y := 1, z := 0 } p.p1
  third : SendsColumn m { x := 0, y := 0, z := 1 } p.p2
  ones : SendsColumn m { x := 1, y := 1, z := 1 } p.p3

/-- The coefficients weigh the basis columns so that they add up to the fourth point. -/
theorem apply3_basisMatrix_scaleCoefficients {p : FourPoints} (hdet : det3 (basisMatrix p) ≠ 0) :
    apply3 (basisMatrix p) (scaleCoefficients p) = homogeneous p.p3 := by
  rw [scaleCoefficients, ← apply3_mul3, mul3_inv3 hdet, apply3_identity3]

/-- R174: the basis map sends the projective frame to the four points. -/
theorem sendsFrame_of_basisMap {p : FourPoints} {m : Mat3} (h : basisMap p = some m) :
    SendsFrame m p := by
  obtain ⟨hgen, rfl⟩ := basisMap_eq_some_iff.mp h
  obtain ⟨hdet, hx, hy, hz⟩ := (generalPosition_iff p).mp hgen
  refine ⟨⟨_, hx, ?_⟩, ⟨_, hy, ?_⟩, ⟨_, hz, ?_⟩, ⟨1, one_ne_zero, ?_⟩⟩
  case refine_4 =>
    simp only [apply3_scaleColumns, mul_one]
    rw [apply3_basisMatrix_scaleCoefficients hdet, scaled_one]
  all_goals simp [apply3, scaleColumns, scaled, homogeneous, basisMatrix]

/-! ### The map between two bases (43_homography.md R175, R176) -/

/-- The two exact matrices are inverse to each other. -/
theorem mul3_pair {a b : Mat3} (ha : det3 a ≠ 0) (hb : det3 b ≠ 0) :
    mul3 (mul3 a (inv3 b)) (mul3 b (inv3 a)) = identity3 :=
  calc mul3 (mul3 a (inv3 b)) (mul3 b (inv3 a))
    _ = mul3 (mul3 a (mul3 (inv3 b) b)) (inv3 a) := by simp only [mul3_assoc]
    _ = identity3 := by rw [inv3_mul3 hb, mul3_identity3, mul3_inv3 ha]

/-- A column that `a` sends to `p` and `b` sends to `q` makes `b·inv3(a)` send `p` to `q`, and so
does every non-zero multiple of it. -/
theorem sends_of_sendsColumn {a b : Mat3} {v : Col3} {p q : RatPoint} {c : ℚ} (hdet : det3 a ≠ 0)
    (hc : c ≠ 0) (ha : SendsColumn a v p) (hb : SendsColumn b v q) :
    Sends (divEntries (mul3 b (inv3 a)) c) p q := by
  obtain ⟨j, hj, hap⟩ := ha
  obtain ⟨k, hk, hbq⟩ := hb
  have hp : homogeneous p = scaled j⁻¹ (apply3 a v) := by
    rw [hap, scaled_scaled, inv_mul_cancel₀ hj, scaled_one]
  refine ⟨c⁻¹ * (j⁻¹ * k), mul_ne_zero (inv_ne_zero hc) (mul_ne_zero (inv_ne_zero hj) hk), ?_⟩
  calc apply3 (divEntries (mul3 b (inv3 a)) c) (homogeneous p)
    _ = scaled c⁻¹ (scaled j⁻¹ (apply3 (mul3 b (mul3 (inv3 a) a)) v)) := by
      rw [apply3_divEntries, hp, apply3_scaled, ← apply3_mul3, mul3_assoc]
    _ = scaled (c⁻¹ * (j⁻¹ * k)) (homogeneous q) := by
      rw [inv3_mul3 hdet, mul3_identity3, hbq, scaled_scaled, scaled_scaled, mul_assoc]

theorem sendsAll_of_basisMap {src dst : FourPoints} {a b : Mat3} {c : ℚ}
    (ha : basisMap src = some a) (hb : basisMap dst = some b) (hc : c ≠ 0) :
    SendsAll (divEntries (mul3 b (inv3 a)) c) src dst := by
  have hdet := det3_ne_zero_of_basisMap ha
  have hsrc := sendsFrame_of_basisMap ha
  have hdst := sendsFrame_of_basisMap hb
  exact ⟨sends_of_sendsColumn hdet hc hsrc.first hdst.first,
    sends_of_sendsColumn hdet hc hsrc.second hdst.second,
    sends_of_sendsColumn hdet hc hsrc.third hdst.third,
    sends_of_sendsColumn hdet hc hsrc.ones hdst.ones⟩

/-! ### The rounded entries (43_homography.md R180) -/

/-- The raw of 1.0 in Q32.32. -/
def oneRaw : Entry := 0x0000000100000000

/-- The identity matrix in Q32.32. -/
def identityEntries : Vector Entry 9 := #v[oneRaw, 0, 0, 0, oneRaw, 0, 0, 0, oneRaw]

theorem toList_roundedEntries (m : Mat3) :
    (roundedEntries m).toList = (List.range 9).map (roundedEntry m) := rfl

/-- The model's range test is that of R180. -/
theorem all_fits64_roundedEntries_iff (m : Mat3) :
    (roundedEntries m).toList.all fits64 = true ↔ EntriesFit m := by
  simp [toList_roundedEntries, EntriesFit, fits64]

theorem cellOr_entriesOf_roundedEntries (m : Mat3) {k : Nat} (hk : k < 9) :
    cellOr 0 (entriesOf (roundedEntries m)) k = BitVec.ofInt 64 (roundedEntry m k) := by
  interval_cases k <;> rfl

/-- R175, R180: entry 8 over itself is 1, which Q32.32 holds exactly. -/
theorem roundedEntry_eight {m : Mat3} (hi : m.i ≠ 0) : roundedEntry m 8 = 2 ^ 32 := by
  have hone : entryOf m 8 / m.i = 1 := div_self hi
  rw [roundedEntry, hone]
  norm_num

theorem cellOr_entriesOf_eight {m : Mat3} (hi : m.i ≠ 0) :
    cellOr 0 (entriesOf (roundedEntries m)) 8 = oneRaw := by
  rw [cellOr_entriesOf_roundedEntries m (by decide), roundedEntry_eight hi]
  rfl

theorem entriesFit_identity3 : EntriesFit identity3 := by
  unfold EntriesFit
  decide +kernel

theorem entriesOf_roundedEntries_identity3 :
    entriesOf (roundedEntries identity3) = identityEntries := by
  decide +kernel

/-! ### HSOLVE (43_homography.md R180) -/

theorem solve_of_not_generalPosition {src dst : FourPoints}
    (h : ¬GeneralPosition src ∨ ¬GeneralPosition dst) : solve src dst = .singular := by
  obtain hsrc | hdst := h
  · rw [solve, basisMap_of_not_generalPosition hsrc]
  · rw [solve, basisMap_of_not_generalPosition hdst]
    cases basisMap src <;> rfl

section Solve

variable {src dst : FourPoints} {a b : Mat3} (ha : basisMap src = some a)
  (hb : basisMap dst = some b)
include ha hb

theorem solve_of_entry_eight_zero (h : (mul3 b (inv3 a)).i = 0 ∨ (mul3 a (inv3 b)).i = 0) :
    solve src dst = .singular := by
  simp only [solve, ha, hb, if_pos h]

/-- With both entries 8 non-zero the range of the rounded entries decides. -/
theorem solve_of_entry_eight_ne_zero (hhx : (mul3 b (inv3 a)).i ≠ 0)
    (hgx : (mul3 a (inv3 b)).i ≠ 0) :
    solve src dst =
      if (roundedEntries (mul3 b (inv3 a))).toList.all fits64 &&
          (roundedEntries (mul3 a (inv3 b))).toList.all fits64 then
        .matrices (entriesOf (roundedEntries (mul3 b (inv3 a))))
          (entriesOf (roundedEntries (mul3 a (inv3 b))))
      else .overflow := by
  simp only [solve, ha, hb, if_neg (not_or.mpr ⟨hhx, hgx⟩)]

theorem solve_of_entriesFit (hhx : (mul3 b (inv3 a)).i ≠ 0) (hgx : (mul3 a (inv3 b)).i ≠ 0)
    (hfit : EntriesFit (mul3 b (inv3 a)) ∧ EntriesFit (mul3 a (inv3 b))) :
    solve src dst = .matrices (entriesOf (roundedEntries (mul3 b (inv3 a))))
      (entriesOf (roundedEntries (mul3 a (inv3 b)))) := by
  rw [solve_of_entry_eight_ne_zero ha hb hhx hgx, if_pos]
  rwa [Bool.and_eq_true, all_fits64_roundedEntries_iff, all_fits64_roundedEntries_iff]

theorem solve_of_not_entriesFit (hhx : (mul3 b (inv3 a)).i ≠ 0) (hgx : (mul3 a (inv3 b)).i ≠ 0)
    (hfit : ¬(EntriesFit (mul3 b (inv3 a)) ∧ EntriesFit (mul3 a (inv3 b)))) :
    solve src dst = .overflow := by
  rw [solve_of_entry_eight_ne_zero ha hb hhx hgx, if_neg]
  rwa [Bool.and_eq_true, all_fits64_roundedEntries_iff, all_fits64_roundedEntries_iff]

end Solve

/-- R180, corner case: with equal sets both exact matrices are the identity. -/
theorem solve_self {p : FourPoints} (h : GeneralPosition p) :
    solve p p = .matrices identityEntries identityEntries := by
  have hmap := basisMap_of_generalPosition h
  have hid := mul3_inv3 (det3_ne_zero_of_basisMap hmap)
  have hsolve := solve_of_entriesFit hmap hmap
  rw [hid, entriesOf_roundedEntries_identity3] at hsolve
  exact hsolve one_ne_zero one_ne_zero ⟨entriesFit_identity3, entriesFit_identity3⟩

theorem exec_hsolve_of_singular {s : State}
    (h : solve (sourcePoints s) (destinationPoints s) = .singular) :
    exec .hsolve s = .next { withError s 6 0x30000000 with hvalid := false } := by
  simp only [sourcePoints, destinationPoints] at h
  simp only [exec, execHsolve, h]
  rfl

theorem exec_hsolve_of_overflow {s : State}
    (h : solve (sourcePoints s) (destinationPoints s) = .overflow) :
    exec .hsolve s = .next { withError s 7 0x30000000 with hvalid := false } := by
  simp only [sourcePoints, destinationPoints] at h
  simp only [exec, execHsolve, h]
  rfl

theorem exec_hsolve_of_matrices {s : State} {hm gm : Vector Entry 9}
    (h : solve (sourcePoints s) (destinationPoints s) = .matrices hm gm) :
    exec .hsolve s = .next { s with h := hm, g := gm, hvalid := true, lastErr := 0 } := by
  simp only [sourcePoints, destinationPoints] at h
  simp only [exec, execHsolve, h]
  rfl

/-! ### Command words of format S (30_encoding.md R104, R106, R107) -/

/-- Where the table gives an opcode to the format S commands `f p`, its words follow the format. -/
theorem formatS_of_decode {op : Byte} {f : PointSel → Instr}
    (h : ∀ w, opcodeOf w = op → decode w = decodeS w f) : FormatS op f := by
  intro w s hop
  split
  case isTrue hz =>
    exact State.command_of_decode ((h w hop).trans (if_pos hz)) s
  case isFalse hnz =>
    rw [State.command, h w hop, decodeS, if_neg hnz]
    rfl

/-! ### Points as pairs (43_homography.md R170, R172, R182) -/

/-- A point as the pair of its raws. -/
def RawPoint.pair (p : RawPoint) : Int × Int := (p.x, p.y)

theorem State.input_eq_map_inputPoint (s : State) (p : PointSel) :
    input s p = (s.inputPoint p).map RawPoint.pair := by
  cases p with
  | pt => rfl
  | r => cases hinv : s.pinv <;> simp [input, State.inputPoint, hinv, RawPoint.pair]

/-- What a point command leaves when it ends without error. -/
theorem State.setPoint_done_eq_withPoint (s : State) (q : Option RawPoint) :
    (s.setPoint q).done = withPoint s (q.map RawPoint.pair) := by
  cases q <;> rfl

theorem map_pair_pointInRange (p : RawPoint) :
    (pointInRange p).map RawPoint.pair = inRange p.x p.y := by
  have hrange : (representable p.x && representable p.y) = true ↔
      -2147483647 ≤ p.x ∧ p.x ≤ 2147483647 ∧ -2147483647 ≤ p.y ∧ p.y ≤ 2147483647 := by
    simp only [representable, Bool.and_eq_true, decide_eq_true_eq]
    omega
  simp only [pointInRange, inRange, hrange, apply_ite (Option.map RawPoint.pair)]
  rfl

/-- A point command whose function `f` of the input point is `g` on pairs. -/
theorem State.setPoint_bind_done_eq_withPoint (s : State) (p : PointSel)
    {f : RawPoint → Option RawPoint} {g : Int × Int → Option (Int × Int)}
    (hfg : ∀ q, (f q).map RawPoint.pair = g q.pair) :
    (s.setPoint ((s.inputPoint p).bind f)).done = withPoint s ((input s p).bind g) := by
  rw [s.setPoint_done_eq_withPoint, s.input_eq_map_inputPoint, Option.map_bind, Option.bind_map]
  congr 2
  exact funext hfg

/-! ### The mapper in integers (43_homography.md R181, R185, R186) -/

theorem roundedQuotient_neg_neg (n d : Int) : roundedQuotient (-n) (-d) = roundedQuotient n d := by
  rw [roundedQuotient, roundedQuotient, ← Int.neg_fdiv_neg]
  congr 1 <;> ring

theorem rhu_intCast_div_of_pos (n : Int) {d : Int} (hd : 0 < d) :
    rhu ((n : ℚ) / d) = roundedQuotient n d := by
  rw [rhu_intCast_div hd, roundedQuotient, Int.fdiv_eq_ediv_of_nonneg _ (by omega)]

/-- The sign of a negative divisor moves to the numerator, where the rounding of R9 for a positive
divisor applies. -/
theorem rhu_intCast_div_of_ne_zero (n : Int) {d : Int} (hd : d ≠ 0) :
    rhu ((n : ℚ) / d) = roundedQuotient n d := by
  obtain hneg | hpos := hd.lt_or_gt
  · have h := rhu_intCast_div_of_pos (-n) (Int.neg_pos_of_neg hneg)
    rwa [Int.cast_neg, Int.cast_neg, neg_div_neg_eq, roundedQuotient_neg_neg] at h
  · exact rhu_intCast_div_of_pos n hpos

theorem mapped_pair (t : Vector Entry 9) (p : RawPoint) :
    mapped t p.pair =
      if rowSum t[6] t[7] t[8] p = 0 then none
      else inRange (roundedQuotient (rowSum t[0] t[1] t[2] p * 65536) (rowSum t[6] t[7] t[8] p))
        (roundedQuotient (rowSum t[3] t[4] t[5] p * 65536) (rowSum t[6] t[7] t[8] p)) := rfl

/-- R181: the exact quotients of the mapper, each rounded once, are floor divisions. -/
theorem map_pair_projectiveMap (t : Vector Entry 9) (p : RawPoint) :
    (projectiveMap t p).map RawPoint.pair = mapped t p.pair := by
  rw [mapped_pair, projectiveMap]
  split_ifs with hzero
  · rfl
  · rw [map_pair_pointInRange, rhu_intCast_div_of_ne_zero _ hzero,
      rhu_intCast_div_of_ne_zero _ hzero]
    rfl

theorem map_pair_boundedPoint (bnd : Bool) (p : RawPoint) :
    (boundedPoint bnd p).map RawPoint.pair = bounded bnd p.pair := by
  have hout : (bnd && !inUnitSquare p) = true ↔
      bnd = true ∧ ¬(0 ≤ p.x ∧ p.x ≤ 65536 ∧ 0 ≤ p.y ∧ p.y ≤ 65536) := by
    simp only [inUnitSquare, Bool.and_eq_true, Bool.not_eq_true', decide_eq_true_eq, and_assoc,
      ← Bool.not_eq_true]
  simp only [boundedPoint, bounded, RawPoint.pair, hout, apply_ite (Option.map RawPoint.pair)]
  rfl

/-- R187: a zero matrix gives every point the divisor 0. -/
theorem mapped_of_zero {t : Vector Entry 9} (h : ∀ k < 9, cellOr 0 t k = 0) (p : Int × Int) :
    mapped t p = none := by
  simp only [mapped, h 6 (by decide), h 7 (by decide), h 8 (by decide)]
  exact if_pos (by simp)

/-! ### HMAP and HIMAP (43_homography.md R184, R185) -/

theorem exec_hmap_of_not_valid {s : State} (h : s.hvalid = false) (p : PointSel) :
    exec (.hmap p) s = .next (withError s 8 (encode (.hmap p))) := by
  simp only [exec, execHmap, h]
  rfl

theorem exec_himap_of_not_valid {s : State} (h : s.hvalid = false) (p : PointSel) :
    exec (.himap p) s = .next (withError s 8 (encode (.himap p))) := by
  simp only [exec, execHimap, h]
  rfl

theorem exec_hmap_of_valid {s : State} (h : s.hvalid = true) (p : PointSel) :
    exec (.hmap p) s = .next (withPoint s ((input s p).bind (mapped s.h))) := by
  rw [← s.setPoint_bind_done_eq_withPoint p (map_pair_projectiveMap s.h)]
  exact if_pos h

theorem exec_himap_of_valid {s : State} (h : s.hvalid = true) (p : PointSel) :
    exec (.himap p) s =
      .next (withPoint s (((input s p).bind (mapped s.g)).bind (bounded s.bnd))) := by
  have hmap (q : RawPoint) : ((projectiveMap s.g q).bind (boundedPoint s.bnd)).map RawPoint.pair =
      (mapped s.g q.pair).bind (bounded s.bnd) := by
    rw [← map_pair_projectiveMap, Option.map_bind, Option.bind_map]
    congr 1
    exact funext (map_pair_boundedPoint s.bnd)
  rw [Option.bind_assoc, ← s.setPoint_bind_done_eq_withPoint p hmap, ← Option.bind_assoc]
  exact if_pos h

end Sys2Proof.Machine

namespace Sys2Proof.Proofs

open Sys2Proof.Machine Sys2Proof.Claims

/-- Settles O39: both basis maps send one projective frame to their four points. -/
theorem exactHomographyMapsTheFourPoints : Obligations.ExactHomographyMapsTheFourPoints := by
  unfold Obligations.ExactHomographyMapsTheFourPoints
  rintro src dst a b ha hb _ _ rfl rfl
  exact ⟨mul3_pair (det3_ne_zero_of_basisMap ha) (det3_ne_zero_of_basisMap hb),
    sendsAll_of_basisMap ha hb, sendsAll_of_basisMap hb ha⟩

/-- Settles O38: the determinant and the coefficients of R174 are the four areas. -/
theorem basisMapExistsInGeneralPosition : Obligations.BasisMapExistsInGeneralPosition := by
  unfold Obligations.BasisMapExistsInGeneralPosition
  exact basisMap_ne_none_iff

/-- Settles O40: the state that HSOLVE leaves, read entry by entry. -/
theorem hsolveStoresTheRoundedMatrices : Obligations.HsolveStoresTheRoundedMatrices := by
  unfold Obligations.HsolveStoresTheRoundedMatrices
  refine ⟨formatZ_of_decode fun w hop => by rw [decode, hop]; rfl,
    fun s a b ha hb hhx hgx hhfit hgfit => ?_⟩
  have hsolve := solve_of_entriesFit ha hb hhx hgx ⟨hhfit, hgfit⟩
  exact ⟨_, exec_hsolve_of_matrices hsolve,
    fun k hk => ⟨cellOr_entriesOf_roundedEntries _ hk, cellOr_entriesOf_roundedEntries _ hk⟩,
    cellOr_entriesOf_eight hhx, cellOr_entriesOf_eight hgx, rfl⟩

/-- Settles O41: by the way the solver ends. -/
theorem hsolveRaisesSingularOrOverflow : Obligations.HsolveRaisesSingularOrOverflow := by
  unfold Obligations.HsolveRaisesSingularOrOverflow
  intro s
  refine ⟨fun hline => ?_, fun a b ha hb => ⟨fun hzero => ?_, fun hhx hgx hfit => ?_⟩⟩
  · exact exec_hsolve_of_singular (solve_of_not_generalPosition hline)
  · exact exec_hsolve_of_singular (solve_of_entry_eight_zero ha hb hzero)
  · exact exec_hsolve_of_overflow (solve_of_not_entriesFit ha hb hhx hgx hfit)

/-- Settles O42: a basis map times its inverse is the identity, whose entries are exact. -/
theorem equalSetsGiveTheIdentity : Obligations.EqualSetsGiveTheIdentity := by
  unfold Obligations.EqualSetsGiveTheIdentity
  intro s hx hy hgen
  have hsame : destinationPoints s = sourcePoints s := by
    rw [destinationPoints, sourcePoints, hx, hy]
  exact exec_hsolve_of_matrices (hsame.symm ▸ solve_self hgen)

/-- Settles O43: by `HCTL.HVALID`. -/
theorem hmapMapsForwardByH : Obligations.HmapMapsForwardByH := by
  unfold Obligations.HmapMapsForwardByH
  exact ⟨formatS_of_decode fun w hop => by rw [decode, hop]; rfl,
    fun p _ => ⟨fun h => exec_hmap_of_not_valid h p, fun h => exec_hmap_of_valid h p⟩⟩

/-- Settles O44: by `HCTL.HVALID`. -/
theorem himapMapsBackwardByG : Obligations.HimapMapsBackwardByG := by
  unfold Obligations.HimapMapsBackwardByG
  exact ⟨formatS_of_decode fun w hop => by rw [decode, hop]; rfl,
    fun p _ => ⟨fun h => exec_himap_of_not_valid h p, fun h => exec_himap_of_valid h p⟩⟩

/-- Settles O45: the mapper finds no point, whichever the input point is. -/
theorem zeroMatrixMapsNoPoint : Obligations.ZeroMatrixMapsNoPoint := by
  unfold Obligations.ZeroMatrixMapsNoPoint
  refine fun p s hvalid => ⟨fun hzero => ?_, fun hzero => ?_⟩
  · rw [exec_hmap_of_valid hvalid, funext (mapped_of_zero hzero), Option.bind_fun_none]
  · rw [exec_himap_of_valid hvalid, funext (mapped_of_zero hzero), Option.bind_fun_none,
      Option.bind_none]

end Sys2Proof.Proofs

/-! ## Proofs: the coordinate scaler (44_scaler.md R196 to R199)

The rounding of a raw by 2^16 as a floor division, the affine function on pairs, the bounds check
and the pixel index in integers. -/

namespace Sys2Proof.Machine

open Sys2Proof.Claims

/-! ### The rounding of a scaled raw (44_scaler.md R196, R198) -/

theorem rhu_intCast_div_pow_sixteen (n : Int) : rhu ((n : ℚ) / 2 ^ 16) = (n + 32768) / 65536 := by
  have hpow : (2 ^ 16 : ℚ) = (65536 : Int) := by norm_num
  rw [hpow, rhu_intCast_div (by decide)]
  omega

theorem affineCoord_eq (k o x : Int) : affineCoord k o x = (o * 65536 + k * x + 32768) / 65536 :=
  rhu_intCast_div_pow_sixteen _

theorem nearest_eq_pixel (x : Int) : nearest x = pixel x := rhu_intCast_div_pow_sixteen x

/-! ### SCALE (44_scaler.md R196, R197) -/

theorem State.map_pair_affine (s : State) (q : RawPoint) :
    (s.affine q).map RawPoint.pair = Claims.affine s q.pair := by
  rw [State.affine, map_pair_pointInRange, affineCoord_eq, affineCoord_eq]
  rfl

theorem exec_scale (p : PointSel) (s : State) :
    exec (.scale p) s = .next (withPoint s ((input s p).bind (Claims.affine s))) := by
  rw [← s.setPoint_bind_done_eq_withPoint p s.map_pair_affine]
  rfl

/-! ### NINT (44_scaler.md R198, R199) -/

theorem State.insideImage_iff (s : State) (px py : Int) :
    s.insideImage px py = true ↔
      0 ≤ px ∧ px < s.imgw.toNat ∧ 0 ≤ py ∧ py < s.imgh.toNat := by
  simp only [State.insideImage, Bool.and_eq_true, decide_eq_true_eq, and_assoc]

/-- R198: inside the image no coordinate is negative, and the index is that of the naturals. -/
theorem State.ofInt_pixelIndex {s : State} {px py : Int} (h : s.insideImage px py = true) :
    BitVec.ofInt 32 (py * s.stride.toNat + px) =
      BitVec.ofNat 32 (py.toNat * s.stride.toNat + px.toNat) := by
  obtain ⟨hx, -, hy, -⟩ := (s.insideImage_iff px py).mp h
  rw [← BitVec.ofInt_natCast]
  push_cast
  rw [Int.toNat_of_nonneg hx, Int.toNat_of_nonneg hy]

section Nint

variable {s : State} {p : PointSel}

theorem exec_nint_of_not_valid (h : s.inputPoint p = none) :
    exec (.nint p) s = .next (withPixel s none) := by
  simp only [exec, execNint, h]
  rfl

/-- NINT of a valid point, with the pixel as the claims write it. -/
theorem exec_nint_of_valid {q : RawPoint} (h : s.inputPoint p = some q) :
    exec (.nint p) s = .next { s with
      pxi := BitVec.ofInt 32 (pixel q.x)
      pyi := BitVec.ofInt 32 (pixel q.y)
      pidx := if s.insideImage (pixel q.x) (pixel q.y) then
          BitVec.ofInt 32 (pixel q.y * s.stride.toNat + pixel q.x) else noIndex
      oob := !s.insideImage (pixel q.x) (pixel q.y)
      lastErr := 0 } := by
  simp only [exec, execNint, h, nearest_eq_pixel]
  rfl

theorem exec_nint_of_inside {q : RawPoint} (h : s.inputPoint p = some q)
    (hin : s.insideImage (pixel q.x) (pixel q.y) = true) :
    exec (.nint p) s = .next (withPixel s (some q.pair)) := by
  have hbounds := (s.insideImage_iff _ _).mp hin
  rw [exec_nint_of_valid h, State.ofInt_pixelIndex hin, hin]
  exact congrArg Host.Outcome.next (if_pos hbounds).symm

theorem exec_nint_of_outside {q : RawPoint} (h : s.inputPoint p = some q)
    (hout : ¬s.insideImage (pixel q.x) (pixel q.y) = true) :
    exec (.nint p) s = .next (withPixel s (some q.pair)) := by
  have hbounds := (s.insideImage_iff _ _).not.mp hout
  rw [exec_nint_of_valid h, if_neg hout, Bool.eq_false_of_not_eq_true hout]
  exact congrArg Host.Outcome.next (if_neg hbounds).symm

end Nint

theorem exec_nint (p : PointSel) (s : State) :
    exec (.nint p) s = .next (withPixel s (input s p)) := by
  rw [s.input_eq_map_inputPoint]
  cases h : s.inputPoint p with
  | none => exact exec_nint_of_not_valid h
  | some q =>
    by_cases hin : s.insideImage (pixel q.x) (pixel q.y) = true
    · exact exec_nint_of_inside h hin
    · exact exec_nint_of_outside h hin

end Sys2Proof.Machine

namespace Sys2Proof.Proofs

open Sys2Proof.Machine Sys2Proof.Claims

/-- Settles O47: the affine function rounds each coordinate once, as a floor division by 2^16. -/
theorem scaleScalesAndOffsets : Obligations.ScaleScalesAndOffsets := by
  unfold Obligations.ScaleScalesAndOffsets
  exact ⟨formatS_of_decode fun w hop => by rw [decode, hop]; rfl, exec_scale⟩

/-- Settles O48: by the validity of the input point and the bounds check. -/
theorem nintRoundsToAPixelIndex : Obligations.NintRoundsToAPixelIndex := by
  unfold Obligations.NintRoundsToAPixelIndex
  exact ⟨formatS_of_decode fun w hop => by rw [decode, hop]; rfl, exec_nint⟩

end Sys2Proof.Proofs

/-! ## Proofs: the system commands (45_system.md R211, R212)

Each of the two commands as one operation on the state, and what the reset of the registers leaves
unchanged cell by cell. -/

namespace Sys2Proof.Machine

/-! ### The two commands (45_system.md R211, R212) -/

theorem exec_nop (s : State) : exec .nop s = .next s.done := rfl

theorem exec_srst (s : State) : exec .srst s = .next s.resetRegisters := rfl

/-! ### The reset of the registers (10_state.md R53, 45_system.md R212)

A buffer cell reads from its buffer and, while unwritten, from the draw of the last hardware reset;
the reset of the registers keeps both. -/

@[simp] theorem State.resetRegisters_resetRegisters (s : State) :
    s.resetRegisters.resetRegisters = s.resetRegisters := rfl

@[simp] theorem State.sbAt_resetRegisters (s : State) (i : Nat) :
    s.resetRegisters.sbAt i = s.sbAt i := rfl

@[simp] theorem State.cfAt_resetRegisters (s : State) (k i : Nat) :
    s.resetRegisters.cfAt k i = s.cfAt k i := rfl

@[simp] theorem State.bvAt_resetRegisters (s : State) (i : Nat) :
    s.resetRegisters.bvAt i = s.bvAt i := rfl

@[simp] theorem State.rlAt_resetRegisters (s : State) (j : Nat) :
    s.resetRegisters.rlAt j = s.rlAt j := rfl

end Sys2Proof.Machine

namespace Sys2Proof.Proofs

open Sys2Proof.Machine

/-- Settles O9: the next state is one that a further reset of the registers leaves as it is, so its
registers read the words of R53. -/
theorem srstResetsRegistersAndKeepsBuffers : Obligations.SrstResetsRegistersAndKeepsBuffers := by
  unfold Obligations.SrstResetsRegistersAndKeepsBuffers
  refine ⟨formatZ_of_decode fun w hop => by rw [decode, hop]; rfl,
    fun s => ⟨s.resetRegisters, exec_srst s, fun r hr => ?registers, s.resetRegisters_irq,
      s.sbAt_resetRegisters, s.cfAt_resetRegisters, s.bvAt_resetRegisters, s.rlAt_resetRegisters,
      s.resetRegisters_cfg, s.resetRegisters_rst, s.resetRegisters_pending,
      s.resetRegisters_resp⟩⟩
  case registers => exact State.readReg_eq_resetWord s.resetRegisters_resetRegisters hr

/-- Settles O8: NOP is the end of a command without error and no effect before it. -/
theorem nopOnlyClearsLasterr : Obligations.NopOnlyClearsLasterr := by
  unfold Obligations.NopOnlyClearsLasterr
  exact ⟨formatZ_of_decode fun w hop => by rw [decode, hop]; rfl, exec_nop⟩

end Sys2Proof.Proofs

/-! ## Proofs: errors and the interrupt (60_exceptions.md R223 to R228, R232)

The words of `ESTAT` and `IEN` as sets of error bits, and the ways a command word can end: without
error, by the reset of the registers, with an error raised before anything was written, or with one
of the two exceptions of R225. -/

namespace Sys2Proof.Machine

open Sys2Proof.Claims

/-! ### The words of `ESTAT` and `IEN` (10_state.md R29, R30) -/

theorem getLsbD_errWord (f : BitVec 8) (j : Nat) :
    (errWord f).getLsbD j = (decide (1 ≤ j) && f.getLsbD (j - 1)) := by
  simp only [errWord, BitVec.getLsbD_shiftLeft, BitVec.getLsbD_setWidth]
  grind

theorem errWord_and (f g : BitVec 8) : errWord (f &&& g) = errWord f &&& errWord g := by
  rw [errWord, BitVec.setWidth_and, BitVec.shiftLeft_and_distrib]
  rfl

theorem State.readReg_estat_and_ien (s : State) :
    s.readReg .estat &&& s.readReg .ien = errWord (s.estat &&& s.ien) :=
  (errWord_and s.estat s.ien).symm

theorem errWord_or (f g : BitVec 8) : errWord (f ||| g) = errWord f ||| errWord g := by
  rw [errWord, BitVec.setWidth_or, BitVec.shiftLeft_or_distrib]
  rfl

theorem errField_errWord (f : BitVec 8) : errField (errWord f) = f := by
  apply BitVec.eq_of_getLsbD_eq
  intro j hj
  rw [errField, BitVec.getLsbD_extractLsb', getLsbD_errWord]
  grind

/-- The field is 0 exactly when the word is: bits 0 and 31:9 are reserved zeros. -/
theorem errWord_eq_zero_iff {f : BitVec 8} : errWord f = 0 ↔ f = 0 := by
  constructor
  · intro h
    rw [← errField_errWord f, h]
    rfl
  · rintro rfl
    rfl

/-- A 1 of the word stands in one of the bits 1 to 8. -/
theorem errWord_ne_zero_iff {f : BitVec 8} :
    errWord f ≠ 0 ↔ ∃ c, 1 ≤ c ∧ c ≤ 8 ∧ (errWord f).getLsbD c = true := by
  constructor
  · contrapose!
    intro hclear
    refine errWord_eq_zero_iff.mpr (BitVec.eq_of_getLsbD_eq fun j hj => ?_)
    have hbit := hclear (j + 1) (by omega) (by omega)
    rw [getLsbD_errWord] at hbit
    simpa using hbit
  · rintro ⟨c, -, -, hc⟩ hzero
    simp [hzero] at hc

/-! ### Error numbers and their bits (60_exceptions.md R221, R224) -/

/-- R221: the error with number `c` has bit `c` of the word. -/
theorem errWord_errBit (c : ErrCode) : errWord (errBit c) = flagAt true (errNumber c) := by
  cases c <;> rfl

/-- R221: no error has number 0. -/
theorem State.raise_lastErr_ne_zero (s : State) (c : ErrCode) (w : Word) :
    (s.raise c w).lastErr ≠ 0 := by
  rw [State.raise_lastErr]
  cases c <;> decide

theorem errNumber_bounds (c : ErrCode) : 1 ≤ errNumber c ∧ errNumber c ≤ 8 := by
  cases c <;> decide

theorem toNat_ofNat_errNumber (c : ErrCode) :
    (BitVec.ofNat 8 (errNumber c)).toNat = errNumber c := by
  have hbounds := errNumber_bounds c
  rw [BitVec.toNat_ofNat, Nat.mod_eq_of_lt (by omega)]

/-! ### The interrupt output (60_exceptions.md R228) -/

theorem State.irq_iff (s : State) : s.irq = true ↔ errWord (s.estat &&& s.ien) ≠ 0 := by
  rw [State.irq, bne_iff_ne]
  exact errWord_eq_zero_iff.not.symm

/-! ### The ways a command word ends (60_exceptions.md R223 to R225) -/

/-- What the command word `w` can leave. An error is raised in the state before the command but for
the two exceptions of R225, and SRST resets the error registers too (45_system.md R212). -/
inductive CommandOutcome (s : State) : Word → State → Prop
  | success {w : Word} {t : State} (hlast : t.lastErr = 0) (hestat : t.estat = s.estat)
      (hecmd : t.ecmd = s.ecmd) : CommandOutcome s w t
  | raised {w : Word} (c : ErrCode) : CommandOutcome s w (s.raise c w)
  /-- 42_parity.md R159: the comparison fails after `PAR` was written. -/
  | mismatch (hrange : ¬s.parityOutOfRange) :
      CommandOutcome s 0x21000000
        ({ s.setParity with pmatch := false }.raise .parityMismatch 0x21000000)
  /-- 43_homography.md R180: no pair of matrices is stored. -/
  | unsolved (c : ErrCode) (hc : errNumber c = 6 ∨ errNumber c = 7) :
      CommandOutcome s 0x30000000 ({ s with hvalid := false }.raise c 0x30000000)
  | reset : CommandOutcome s 0x7F000000 s.resetRegisters

theorem CommandOutcome.point (s : State) (w : Word) (q : Option (Int × Int)) :
    CommandOutcome s w (withPoint s q) := by
  cases q <;> exact .success rfl rfl rfl

theorem CommandOutcome.pixel (s : State) (w : Word) (q : Option (Int × Int)) :
    CommandOutcome s w (withPixel s q) := by
  cases q with
  | none => exact .success rfl rfl rfl
  | some q =>
    rw [withPixel]
    split <;> exact .success rfl rfl rfl

theorem exec_outcome (i : Instr) (s : State) :
    ∃ t, exec i s = .next t ∧ CommandOutcome s (encode i) t := by
  cases i with
  | nop => exact ⟨_, exec_nop s, .success rfl rfl rfl⟩
  | gfmul => exact ⟨_, exec_gfmul s, .success rfl rfl rfl⟩
  | gfdiv =>
    by_cases hb : s.gfb = 0
    · exact ⟨_, exec_gfdiv_of_zero hb, .raised .gfDivZero⟩
    · exact ⟨_, exec_gfdiv_of_ne_zero hb, .success rfl rfl rfl⟩
  | gfexp => exact ⟨_, exec_gfexp s, .success rfl rfl rfl⟩
  | gflog =>
    by_cases ha : s.gfa = 0
    · exact ⟨_, exec_gflog_of_zero ha, .raised .gfLogZero⟩
    · exact ⟨_, exec_gflog_of_ne_zero ha, .success rfl rfl rfl⟩
  | pack n =>
    by_cases hn : n > s.cfg.bvMax ∨ n > 8 * s.cfg.sbMax
    · exact ⟨_, exec_pack_of_gt hn, .raised .range⟩
    · exact ⟨_, exec_pack_of_le (by omega) (by omega), .success rfl rfl rfl⟩
  | unpack n =>
    by_cases hn : n > s.cfg.bvMax ∨ n > 8 * s.cfg.sbMax
    · exact ⟨_, exec_unpack_of_gt hn, .raised .range⟩
    · exact ⟨_, exec_unpack_of_le (by omega) (by omega), .success rfl rfl rfl⟩
  | rle n =>
    by_cases hn : n > s.cfg.bvMax
    · exact ⟨_, exec_rle_of_gt hn, .raised .range⟩
    · exact ⟨_, exec_rle_of_le (by omega), .success rfl rfl rfl⟩
  | pargen =>
    by_cases hrange : s.parityOutOfRange
    · exact ⟨_, exec_pargen_of_out_of_range hrange, .raised .range⟩
    · exact ⟨_, exec_pargen_of_in_range hrange, .success rfl rfl rfl⟩
  | parchk =>
    by_cases hrange : s.parityOutOfRange ∨ s.groupOutOfRange
    · exact ⟨_, exec_parchk_of_out_of_range hrange, .raised .range⟩
    · by_cases hagree : GroupsAgree s
      · exact ⟨_, exec_parchk_of_agree hrange hagree, .success rfl rfl rfl⟩
      · exact ⟨_, exec_parchk_of_disagree hrange hagree, .mismatch (not_or.mp hrange).1⟩
  | hsolve =>
    cases hsolve : solve (sourcePoints s) (destinationPoints s) with
    | singular => exact ⟨_, exec_hsolve_of_singular hsolve, .unsolved .hgSingular (.inl rfl)⟩
    | overflow => exact ⟨_, exec_hsolve_of_overflow hsolve, .unsolved .hgOverflow (.inr rfl)⟩
    | matrices h g => exact ⟨_, exec_hsolve_of_matrices hsolve, .success rfl rfl rfl⟩
  | hmap p =>
    cases hvalid : s.hvalid with
    | false => exact ⟨_, exec_hmap_of_not_valid hvalid p, .raised .hgNotValid⟩
    | true => exact ⟨_, exec_hmap_of_valid hvalid p, .point s _ _⟩
  | himap p =>
    cases hvalid : s.hvalid with
    | false => exact ⟨_, exec_himap_of_not_valid hvalid p, .raised .hgNotValid⟩
    | true => exact ⟨_, exec_himap_of_valid hvalid p, .point s _ _⟩
  | scale p => exact ⟨_, exec_scale p s, .point s _ _⟩
  | nint p => exact ⟨_, exec_nint p s, .pixel s _ _⟩
  | srst => exact ⟨_, exec_srst s, .reset⟩

/-- An illegal word raises before anything is written (30_encoding.md R106). -/
theorem State.command_outcome (s : State) (w : Word) :
    ∃ t, s.command exec w = .next t ∧ CommandOutcome s w t := by
  cases hdec : decode w with
  | ok i =>
    obtain ⟨rfl, -⟩ := decode_eq_ok_iff_encode.mp hdec
    rw [State.command_of_decode hdec]
    exact exec_outcome i s
  | error e => exact ⟨_, State.command_eq_next.mpr (.inr ⟨⟨e, hdec⟩, rfl⟩), .raised .illegalCmd⟩

theorem CommandOutcome.of_command {s t : State} {w : Word} (h : s.command exec w = .next t) :
    CommandOutcome s w t := by
  obtain ⟨u, hu, houtcome⟩ := s.command_outcome w
  cases hu.symm.trans h
  exact houtcome

end Sys2Proof.Machine

namespace Sys2Proof.Proofs

open Sys2Proof.Machine Sys2Proof.Claims

/-- Settles O14: by the way the command ends; only three of the five are failures. -/
theorem failedCommandsArePrecise : Obligations.FailedCommandsArePrecise := by
  unfold Obligations.FailedCommandsArePrecise
  intro s t w h hfailed
  cases CommandOutcome.of_command h with
  | success hlast => exact absurd hlast hfailed
  | raised c => exact ⟨rfl, .inl rfl⟩
  | mismatch hrange =>
    have hrows : s.prows.toNat ≤ s.cfg.kMax := by
      unfold State.parityOutOfRange at hrange
      omega
    exact ⟨rfl, .inr (.inl ⟨rfl, rfl, rfl, fun _ => parAt_of_lt_prows rfl hrows,
      fun _ => parAt_of_prows_le rfl hrows⟩)⟩
  | unsolved c hc =>
    refine ⟨rfl, .inr (.inr ⟨rfl, ?_, rfl⟩)⟩
    exact hc.imp (congrArg (BitVec.ofNat 8)) (congrArg (BitVec.ofNat 8))
  | reset => exact absurd s.resetRegisters_lastErr hfailed

/-- Settles O15: by the way the command ends; of those that leave `LASTERR` = 0 only SRST writes
`ESTAT` and `ECMD`. -/
theorem successfulCommandsKeepErrorRegisters :
    Obligations.SuccessfulCommandsKeepErrorRegisters := by
  unfold Obligations.SuccessfulCommandsKeepErrorRegisters
  intro s t w h hlast hsrst
  cases CommandOutcome.of_command h with
  | success _ hestat hecmd => exact ⟨hestat, hecmd⟩
  | raised | mismatch | unsolved => exact absurd hlast (State.raise_lastErr_ne_zero _ _ _)
  | reset => exact absurd rfl hsrst

/-- Settles O17: the words read from `ESTAT` and `IEN` meet in the word of the common field. -/
theorem interruptLevelIsAPendingEnabledSource :
    Obligations.InterruptLevelIsAPendingEnabledSource := by
  unfold Obligations.InterruptLevelIsAPendingEnabledSource
  intro s
  refine ⟨?_, ?_, (getLsbD_statusWord_of_ge s (by decide)).trans (by simp)⟩
  · rw [s.readReg_estat_and_ien]
    exact s.irq_iff
  · simp only [← Bool.and_eq_true, ← BitVec.getLsbD_and, s.readReg_estat_and_ien]
    exact s.irq_iff.trans errWord_ne_zero_iff

/-- Settles O13: the bit that error entry ORs in is the one of its number. -/
theorem errorEntryWritesThreeRegisters : Obligations.ErrorEntryWritesThreeRegisters := by
  unfold Obligations.ErrorEntryWritesThreeRegisters
  intro s c w
  refine ⟨toNat_ofNat_errNumber c, s.raise_ecmd c w, fun j _ => ?_, rfl⟩
  have hnumber : errNumber c < 32 := by have := errNumber_bounds c; omega
  calc ((s.raise c w).readReg .estat).getLsbD j
    _ = (errWord (s.estat ||| errBit c)).getLsbD j := rfl
    _ = ((errWord s.estat).getLsbD j || (flagAt true (errNumber c)).getLsbD j) := by
      rw [errWord_or, BitVec.getLsbD_or, errWord_errBit]
    _ = ((s.readReg .estat).getLsbD j || decide (j = errNumber c)) := by
      rw [getLsbD_flagAt _ hnumber, Bool.true_and]
      rfl

end Sys2Proof.Proofs

/-! ## Proofs: the reset input and the end of every command (70_reset_and_hazards.md R250, R263)

While the reset input is asserted a transaction inside the window ends before its width, its
alignment and the map are looked at, so a read and a write stop alike. -/

namespace Sys2Proof.Machine

/-! ### The reset input (70_reset_and_hazards.md R250) -/

theorem State.target_of_rst {s : State} (hrst : s.rst = true) (off : Nat) (width : Width)
    (k : Reg → Result) : s.target off width k = .refused .heldInReset := by
  rw [State.target, if_pos hrst]

/-- R70, R250: whatever the transaction is, the block does not serve it. -/
theorem step_of_pending_at_of_rst {s : State} {e : HostEvent} {off : Nat} {width : Width}
    {rest : List HostEvent} (hrst : s.rst = true) (hoff : off < windowSize)
    (hp : s.pending = e :: rest) (he : e.At (s.cfg.base + off) width) :
    step s = .refused .heldInReset := by
  obtain ⟨k, hstep⟩ := step_of_pending_at hp he
  rw [State.transaction_base_add { s with pending := rest } hoff] at hstep
  exact hstep.trans (State.target_of_rst hrst off width k)

theorem step_of_pending_release {s : State} {rest : List HostEvent}
    (hp : s.pending = .reset false :: rest) :
    step s = .next { s with rst := false, pending := rest, resp := .none } := by
  simp only [step, hp, serve]

end Sys2Proof.Machine

namespace Sys2Proof.Proofs

open Sys2Proof.Machine

/-- Settles O12: reads and writes are transactions inside the window; the release is served. -/
theorem heldInResetServesNothing : Obligations.HeldInResetServesNothing := by
  unfold Obligations.HeldInResetServesNothing
  intro s rest hrst
  refine ⟨fun off width hoff hp => ?read, fun off width v hoff hp => ?write,
    step_of_pending_release⟩
  case read => exact step_of_pending_at_of_rst hrst hoff hp (.inl rfl)
  case write => exact step_of_pending_at_of_rst hrst hoff hp (.inr ⟨v, rfl⟩)

/-- Settles O16: each of the ways in which a command word can end is a next state. -/
theorem everyCommandWordCompletes : Obligations.EveryCommandWordCompletes := by
  unfold Obligations.EveryCommandWordCompletes
  intro s w
  obtain ⟨t, hnext, -⟩ := s.command_outcome w
  exact ⟨t, hnext⟩

end Sys2Proof.Proofs
